-- ==== Sys2Proof/Word.lean ====
section
/-! DEFINITION. The word types of NEXA-TX: the three encoded formats of R50, the byte view of R39, slot
levels and the four symbols of the alphabet (R51). A time or a duration is a natural number of microseconds that never
wraps (R7, R20, R136): a plain Nat. -/

namespace Sys2Proof

/-- One byte of the byte view of a command word (R39). -/
abbrev Byte := BitVec 8

/-- `CMD64`: the command word on the `cmd` port (R50, R52). -/
abbrev Cmd64 := BitVec 64

/-- `SYM2`: a symbol code, the address of `PATROM` (R50, R51). -/
abbrev Sym2 := BitVec 2

/-- `ROMW`: one `PATROM` word, LEN in bits 48..43 and PAT in bits 42..0 (R50, R60). -/
abbrev RomWord := BitVec 49

/-- A slot level or a level of the pin: `true` is HIGH (1) and `false` is LOW (0) (R11, R13). DESIGN CHOICE, safe (log 20):
a one-bit value is a Bool. -/
abbrev Level := Bool

/-- The alphabet {Sync, Zero, One, Pause} (R51). A symbol value outside it (R72) is written `none : Option Symbol`. -/
inductive Symbol where
  | sync
  | zero
  | one
  | pause
deriving DecidableEq, Repr, Inhabited

end Sys2Proof
end

