-- ==== Sys2Proof/Config.lean ====
section
/-! DEFINITION. The parameters of R6, and the FREE VALUES of the model: opaque constants with no body, so that nothing can
be proved of what they are. Each stands where the spec leaves a value open (93_implementation_defined.md); a claim about
the machine holds for every value of them. -/

namespace Sys2Proof

/-- `SLOT_US`: µs per slot (R6). -/
def Config.slotUs : Nat := 250

/-- `GAP_US`: µs of silence after every repetition (R6). -/
def Config.gapUs : Nat := 35000

/-- `FRAME_SYMS`: symbols per frame (R6; 90_conflicts.md C1: 34, not 45). -/
def Config.frameSyms : Nat := 34

/-- `FRAME_SLOTS`: slots per frame (R6, R81; 90_conflicts.md C2: 310, not 322 and not 302). -/
def Config.frameSlots : Nat := 310

/-- `DEFAULT_REPS`: the repetition count of the assembler's three-operand form (R6, R59). -/
def Config.defaultReps : Nat := 4

/-- `TIME_WIDTH`: the clock width of a finite implementation, an open parameter (R6, R130; U11). The block of this model
has unbounded time and never reads it (log 18). -/
opaque Config.timeWidth : Nat

/-- What the environment does in one step of its own choosing: the ports `rst`, `start`, `cmd`, and by how many µs `now_us`
has grown since the previous step. That it has grown, and never shrunk, is the limit R129 sets on the choice. -/
structure EnvChoice where
  rst : Bool
  start : Bool
  cmd : Cmd64
  elapsed : Nat
deriving DecidableEq, Repr, Inhabited

/-- FREE VALUE (U2, U3, U4; R95; log 1): the environment's step number `n`, where no planned step is left. -/
opaque Config.envChoice : Nat → EnvChoice

/-- The registers that a reset step leaves unspecified (R122; U10). -/
structure Unspecified where
  idR : BitVec 26
  unitR : BitVec 8
  actR : Bool
  repsR : BitVec 16
  repCnt : BitVec 16
  symIdx : BitVec 6
  slotIdx : BitVec 6
  tNext : Nat
  gapEnd : Nat
deriving DecidableEq, Repr, Inhabited

/-- FREE VALUE (U10; R122; log 3): what those registers hold after a reset step, the draw numbered `n`. -/
opaque Config.afterReset : Nat → Unspecified

/-- FREE VALUE (R37, R43; log 7): what `UNITROM` would answer at a unit outside 1 to 4, a read that never happens. -/
opaque Config.unitRomOutside : BitVec 8 → Symbol × Symbol

/-- FREE VALUE (R74; log 8): what `FrameSym` would answer at a frame index above 33, which never occurs, for these
`id_r`, `unit_r`, `act_r` and index; `none` is a symbol value outside the alphabet (R72). -/
opaque Config.frameSymOutside : BitVec 26 → BitVec 8 → Bool → Nat → Option Symbol

/-- FREE VALUE (R36, R60; log 9): the level at a slot index of 43 or more, which no `PAT` bit holds and no rule reads. -/
opaque Config.patBitOutside : Symbol → Nat → Level

end Sys2Proof
end

