-- ==== Sys2Proof/Syntax.lean ====
section
/-! DEFINITION. The instructions: one constructor per row of spec/opcode_table.json (R63), and the assembler's notation
(R59), which is source text and has no row of its own. -/

namespace Sys2Proof

/-- The operations of the block (R63). `transmit` carries every bit of the command word, the ignored ones too (R52, R53,
R57), so that no bit of an encoding is dropped. -/
inductive Instr where
  /-- TRANSMIT (R86), format `CMD64`: `ID`, `UNIT`, `ACT` (`true` is on), `RSV`, `REPS`. -/
  | transmit (id : BitVec 32) (unit : BitVec 8) (act : Bool) (rsv : BitVec 7) (reps : BitVec 16)
  /-- SYNC (R68), `SYM2` code 00. -/
  | sync
  /-- ZERO (R69), `SYM2` code 01. -/
  | zero
  /-- ONE (R70), `SYM2` code 10. -/
  | one
  /-- PAUSE (R71), `SYM2` code 11. -/
  | pause
deriving DecidableEq, Repr

/-- The pulse-generator operation that a symbol of a frame stands for (R63). -/
def Symbol.instr : Symbol → Instr
  | .sync => .sync
  | .zero => .zero
  | .one => .one
  | .pause => .pause

/-- The assembler's two forms (R59). `act` is `true` for `1` and `ON`, `false` for `0` and `OFF`. -/
inductive Asm where
  /-- `TRANSMIT id, unit, act, reps` -/
  | transmit (id unit : Nat) (act : Bool) (reps : Nat)
  /-- `TRANSMIT id, unit, act`, the one pseudo-instruction -/
  | transmitDefault (id unit : Nat) (act : Bool)
deriving DecidableEq, Repr

/-- The source's software call `transmit(id, unit, activation, repetitions)`, whose arguments are integers of any size
(R95, R134). -/
structure Call where
  id : Int
  unit : Int
  activation : Bool
  repetitions : Nat
deriving DecidableEq, Repr

end Sys2Proof
end

