-- ==== Sys2Proof/WellFormed.lean ====
section
/-! DEFINITION. Well-formedness of what a host writes. It is a duty of the host and the assembler, never a test the block
makes: every 64-bit word and every 2-bit code is a legal encoding (R64), and no meaning reads these predicates. -/

namespace Sys2Proof

/-- An instruction as the assembler writes it: a host should write `RSV` as 0 (R57, R59). DESIGN CHOICE, safe (log 21). -/
def Instr.wellFormed : Instr → Bool
  | .transmit _ _ _ rsv _ => rsv == 0
  | .sync => true
  | .zero => true
  | .one => true
  | .pause => true

/-- The ranges of the assembler's operands: `id` below 2^32, `unit` below 2^8, `reps` below 2^16 (R59). -/
def Asm.wellFormed : Asm → Bool
  | .transmit id unit _ reps => decide (id < 2 ^ 32) && decide (unit < 2 ^ 8) && decide (reps < 2 ^ 16)
  | .transmitDefault id unit _ => decide (id < 2 ^ 32) && decide (unit < 2 ^ 8)

end Sys2Proof
end

