-- ==== Sys2Proof/Decode.lean ====
section
/-! DEFINITION. The decoder, total and rejecting by name, then the encoder and the assembler. The formats are R50 to R52;
the operand slices are R66. -/

namespace Sys2Proof

/-- A code in one of the two formats that select an operation (R50, R63): a command word, or a symbol code. -/
inductive Code where
  | cmd64 (w : Cmd64)
  | sym2 (c : Sym2)
deriving DecidableEq, Repr

/-- Why bytes are no code. Raised by `Code.ofBytes` only; the block fetches no bytes (R33), so no step raises it. Safe. -/
inductive DecodeError where
  /-- a byte above 3: a symbol value outside the alphabet (R72), which has no `SYM2` code -/
  | unrecognisedSymbol
  /-- neither 1 byte (`SYM2`) nor 8 bytes (`CMD64`): R65 gives every format one fixed width -/
  | noSuchWidth
deriving DecidableEq, Repr

/-! ### Decoding -/

/-- Every command word is a TRANSMIT (R58); its operands are unsigned slices of it (R52, R66). -/
def decodeCmd (w : Cmd64) : Instr :=
  .transmit (w.extractLsb' 0 32) (w.extractLsb' 32 8) (w.getLsbD 40) (w.extractLsb' 41 7) (w.extractLsb' 48 16)

/-- The symbol a `SYM2` code names (R51): all four codes are defined. -/
def symbolOfCode (c : Sym2) : Symbol :=
  match c.toNat with
  | 0 => .sync
  | 1 => .zero
  | 2 => .one
  | _ => .pause

/-- The operation a `SYM2` code selects (R51, R63). -/
def decodeSym (c : Sym2) : Instr := (symbolOfCode c).instr

/-- The operation a code selects (R63). No code is reserved (R64). -/
def decode : Code → Instr
  | .cmd64 w => decodeCmd w
  | .sym2 c => decodeSym c

/-- The code that bytes present: eight bytes are a command word, byte k being bits 8k+7..8k (R39); one byte is a symbol
code (DESIGN CHOICE, safe, log 13: the spec gives no byte view of `SYM2`). -/
def Code.ofBytes : List Byte → Except DecodeError Code
  | [b] => if b.toNat < 4 then .ok (.sym2 (b.extractLsb' 0 2)) else .error .unrecognisedSymbol
  | [b0, b1, b2, b3, b4, b5, b6, b7] => .ok (.cmd64 (b7 ++ b6 ++ b5 ++ b4 ++ b3 ++ b2 ++ b1 ++ b0))
  | _ => .error .noSuchWidth

/-- Decoding from bytes, total on any bytes. -/
def decodeBytes (bs : List Byte) : Except DecodeError Instr :=
  match Code.ofBytes bs with
  | .ok c => .ok (decode c)
  | .error e => .error e

/-! ### Encoding -/

/-- The `SYM2` code of a symbol (R51). -/
def Symbol.code : Symbol → Sym2
  | .sync => 0b00#2
  | .zero => 0b01#2
  | .one => 0b10#2
  | .pause => 0b11#2

/-- The command word of its five fields, `REPS` topmost (R52). -/
def encodeCmd (id : BitVec 32) (unit : BitVec 8) (act : Bool) (rsv : BitVec 7) (reps : BitVec 16) : Cmd64 :=
  reps ++ rsv ++ BitVec.ofBool act ++ unit ++ id

/-- The code of an instruction, in its format (R63). -/
def encode : Instr → Code
  | .transmit id unit act rsv reps => .cmd64 (encodeCmd id unit act rsv reps)
  | .sync => .sym2 Symbol.sync.code
  | .zero => .sym2 Symbol.zero.code
  | .one => .sym2 Symbol.one.code
  | .pause => .sym2 Symbol.pause.code

/-- Byte `k` of a command word: bits 8k+7..8k (R39). -/
def cmdByte (w : Cmd64) (k : Nat) : Byte := w.extractLsb' (8 * k) 8

/-- The bytes of a code, the lowest first (R39; log 13). -/
def Code.toBytes : Code → List Byte
  | .cmd64 w => [cmdByte w 0, cmdByte w 1, cmdByte w 2, cmdByte w 3, cmdByte w 4, cmdByte w 5, cmdByte w 6, cmdByte w 7]
  | .sym2 c => [c.setWidth 8]

/-! ### The assembler and the host's software integers -/

/-- The pseudo-instruction expands to the four-operand form with reps 4 (R59). -/
def Asm.expand : Asm → Asm
  | .transmit id unit act reps => .transmit id unit act reps
  | .transmitDefault id unit act => .transmit id unit act Config.defaultReps

/-- The instruction an assembler line stands for, with `RSV` = 0; none where an operand is out of its range (R59). -/
def Asm.assemble (a : Asm) : Option Instr :=
  if a.wellFormed then
    match a.expand with
    | .transmit id unit act reps =>
      some (.transmit (BitVec.ofNat 32 id) (BitVec.ofNat 8 unit) act 0 (BitVec.ofNat 16 reps))
    | .transmitDefault _ _ _ => none
  else none

/-- The command word of R59's own formula:
`zext_64(reps) << 48 | zext_64(act) << 40 | zext_64(unit) << 32 | zext_64(id)`. -/
def Asm.formulaWord (id unit : Nat) (act : Bool) (reps : Nat) : Cmd64 :=
  (BitVec.ofNat 64 reps <<< 48) ||| (BitVec.ofNat 64 act.toNat <<< 40) ||| (BitVec.ofNat 64 unit <<< 32) |||
    BitVec.ofNat 64 id

/-- `UNIT` as a host must present a software unit: outside 0..255 as 0, never reduced modulo 256 (R95, R134). -/
def Call.unitField (c : Call) : BitVec 8 :=
  if 0 ≤ c.unit ∧ c.unit ≤ 255 then BitVec.ofInt 8 c.unit else 0

/-- `ID` as a host presents a software id: of a negative one, the bits of its two's-complement form (R134). -/
def Call.idField (c : Call) : BitVec 32 := BitVec.ofInt 32 c.id

/-- How a software repetition count is split over commands: each at most 65535 (R95, R134). DESIGN CHOICE, safe (log 17):
the full commands first, the rest last, and one command of 0 for a count of 0. -/
def Call.repsFields (c : Call) : List (BitVec 16) :=
  List.replicate (c.repetitions / 65535) (BitVec.ofNat 16 65535) ++
    if c.repetitions % 65535 = 0 ∧ c.repetitions ≠ 0 then [] else [BitVec.ofNat 16 (c.repetitions % 65535)]

/-- The commands a host issues, one after the other, for one software call (R95, R134). -/
def Call.commands (c : Call) : List Instr :=
  c.repsFields.map fun r => .transmit c.idField c.unitField c.activation 0 r

/-! ### The opcode table's numbering -/

/-- The bytes of a table word: the number `w` cut to `nbits` and laid out as the format's bytes, the lowest first. A row of
at most one byte is a symbol code, a longer one (or one with no bits of its own) a command word; R65 gives each format
one width. -/
def tableBytes (nbits w : Nat) : List Byte :=
  if 1 ≤ nbits ∧ nbits ≤ 8 then [BitVec.ofNat 8 (w % 2 ^ nbits)]
  else if nbits ≤ 64 then (Code.cmd64 (BitVec.ofNat 64 (w % 2 ^ nbits))).toBytes
  else []

/-- The code a table word presents, if it presents one. -/
def tableCode (nbits w : Nat) : Option Code :=
  match Code.ofBytes (tableBytes nbits w) with
  | .ok c => some c
  | .error _ => none

/-- The instruction the decoder reads from a table word. -/
def decodeTableWord (nbits w : Nat) : Option Instr :=
  match decodeBytes (tableBytes nbits w) with
  | .ok i => some i
  | .error _ => none

end Sys2Proof
end

