-- ==== Sys2Proof/Machine/Rom.lean ====
section
/-! DEFINITION. The two read-only memories (R28, R32, R38) and the symbol encoder `PatternOf` (R67 to R72). The ROMs are
constants: nothing writes them and they are the same at every step, so they are definitions and not fields of State
(log 14). -/

namespace Sys2Proof.Machine

/-- `PATROM`: the word at each symbol code, in `ROMW` format (R36, R60). -/
def patRom (c : Sym2) : RomWord :=
  match c.toNat with
  | 0 => 0x0580000000001#49
  | 1 => 0x0400000000041#49
  | 2 => 0x0400000000005#49
  | _ => 0x1580000000001#49

/-- LEN of a `ROMW`: bits 48..43 (R60). -/
def romLen (r : RomWord) : BitVec 6 := r.extractLsb' 43 6

/-- PAT of a `ROMW`: bits 42..0, bit j the level of slot j (R60). -/
def romPat (r : RomWord) : BitVec 43 := r.extractLsb' 0 43

/-- `RomRead(PATROM, s)`: the pair (LEN, PAT) at symbol code `s`, the whole word in one read (R36, R42). -/
def romRead (y : Symbol) : BitVec 6 × BitVec 43 := (romLen (patRom y.code), romPat (patRom y.code))

/-- The pattern length in slots of a symbol value; a value outside the alphabet has no slots (R36, R72). -/
def symLen : Option Symbol → Nat
  | some y => (romRead y).1.toNat
  | none => 0

/-- `P[j]`: the level of slot j of a symbol (R36, R88). A bit of PAT at or above LEN is 0 (R36); at 43 and above PAT has no
bit and no rule reads one: a free value (log 9). -/
def slotLevel (y : Symbol) (j : Nat) : Level :=
  if j < 43 then (romRead y).2.getLsbD j else Config.patBitOutside y j

/-- `PatternOf(s)`: the slot levels of a symbol value, slot 0 first (R67); the empty pattern outside the alphabet (R72). -/
def patternOf : Option Symbol → List Level
  | some y => (List.range (romRead y).1.toNat).map (slotLevel y)
  | none => []

/-- `UNITROM` as its two `SYM2` codes, U1 first (R37, R61). A read at a unit outside 1 to 4 never happens (R37): a free
value (log 7). -/
def unitRom (u : BitVec 8) : Sym2 × Sym2 :=
  match u.toNat with
  | 1 => (0b10#2, 0b10#2)
  | 2 => (0b10#2, 0b01#2)
  | 3 => (0b01#2, 0b10#2)
  | 4 => (0b01#2, 0b01#2)
  | _ => ((Config.unitRomOutside u).1.code, (Config.unitRomOutside u).2.code)

/-- `RomRead(UNITROM, u)`: the pair of unit symbols (U1, U2), U1 emitted first (R37). -/
def unitRead (u : BitVec 8) : Symbol × Symbol := (symbolOfCode (unitRom u).1, symbolOfCode (unitRom u).2)

end Sys2Proof.Machine
end

