-- ==== Sys2Proof/Machine/State.lean ====
section
/-! DEFINITION. The state of the block (R15), the reasons a step can stop, and the state right after reset (R121). -/

namespace Sys2Proof.Machine

/-- The state of the frame-repetition state machine, the 2-bit register `fsm` (R15, R16): IDLE = 0, SLOT = 1, GAP = 2.
`code3` is the encoding 3, which no rule writes: stuck until reset (R16; U6; log 6). -/
inductive Fsm where
  | idle
  | slot
  | gap
  | code3
deriving DecidableEq, Repr, Inhabited

/-- The 2-bit encoding of `fsm` (R15, R16). -/
def Fsm.code : Fsm → BitVec 2
  | .idle => 0#2
  | .slot => 1#2
  | .gap => 2#2
  | .code3 => 3#2

/-- One write event of the observation `W`: the time and the level of one `Emit` (R11, R97). -/
structure WriteEvent where
  time : Nat
  level : Level
deriving DecidableEq, Repr, Inhabited

/-- What the input ports carry in one step: `rst`, `start`, `cmd`, `now_us` (R13, R84). -/
structure StepInput where
  rst : Bool
  start : Bool
  cmd : Cmd64
  now : Nat
deriving DecidableEq, Repr, Inhabited

/-- The kinds of fault that `raise Fault(kind)` takes (R8, R109): one. -/
inductive FaultKind where
  /-- a `start` request while a transmission is in progress (R92) -/
  | reentry
deriving DecidableEq, Repr

/-- The outcome `fault`: the block has none. Its one fault, Reentry, sets a flag and the step goes on (R109, R112), so this
type is empty and no step can end in a fault. Safe. -/
inductive Fault
deriving DecidableEq, Repr

/-- Why a step is refused. -/
inductive Refusal where
  /-- an instruction that has no meaning yet; raised by an arm of exec. Safe. -/
  | notModelled (mnemonic : String)
  /-- raised by `step` where the step's `now` is smaller than the previous step's: such a step is not admitted, the model
  has no such move (R84, R129; U12; log 5). Safe. -/
  | nowDecreased (previous now : Nat)
deriving DecidableEq, Repr

/-- The whole state of the machine. The first twelve fields are the registers of R15. -/
@[ext]
structure State where
  /-- `fsm` (R16) -/
  fsm : Fsm
  /-- `id_r[25:0]` (R17) -/
  idR : BitVec 26
  /-- `unit_r[7:0]` (R17) -/
  unitR : BitVec 8
  /-- `act_r`: `true` is 1, "on" (R17) -/
  actR : Bool
  /-- `reps_r[15:0]` (R17) -/
  repsR : BitVec 16
  /-- `rep_cnt[15:0]`: the repetitions completed so far (R18) -/
  repCnt : BitVec 16
  /-- `sym_idx[5:0]` (R19) -/
  symIdx : BitVec 6
  /-- `slot_idx[5:0]` (R19) -/
  slotIdx : BitVec 6
  /-- `t_next`: the deadline of the slot on the pin (R20) -/
  tNext : Nat
  /-- `gap_end`: the deadline of the gap (R21) -/
  gapEnd : Nat
  /-- `pin`: the level last emitted (R22) -/
  pin : Level
  /-- `fault_reentry`: the sticky re-entry flag (R23) -/
  faultReentry : Bool
  /-- `W`: the write events since the last reset, in emission order (R97; log 15) -/
  w : List WriteEvent
  /-- `now_us` as the most recent step sampled it (R13, R14, R84) -/
  now : Nat
  /-- the model's own: the environment's planned steps, the next one first (log 1) -/
  env : List StepInput
  /-- the model's own: how many free draws have been made (log 1, log 3) -/
  draws : Nat
deriving DecidableEq, Repr, Inhabited

/-- The machine right after a reset step at time 0 (R121). `fsm`, `pin`, `fault_reentry` and `W` are the spec's. DESIGN
CHOICE, unsafe (log 2, log 4): every register the spec leaves unspecified holds 0, the last sampled time is 0 (the start
of every program of 95_test_vectors.md), no environment step is planned and no free draw has been made. -/
def State.reset : State where
  fsm := .idle
  idR := 0
  unitR := 0
  actR := false
  repsR := 0
  repCnt := 0
  symIdx := 0
  slotIdx := 0
  tNext := 0
  gapEnd := 0
  pin := false
  faultReentry := false
  w := []
  now := 0
  env := []
  draws := 0

end Sys2Proof.Machine
end

