-- ==== Sys2Proof/Machine/Operands.lean ====
section
/-! DEFINITION. Operand forms: the slices of the command word (R53 to R57, R66), the bit-field extractor (R75) and the frame
assembler (R74 to R82), which are functions of the latched operands and a frame index. -/

namespace Sys2Proof.Machine

/-- `id_r` from the `ID` field: its low 26 bits, `cmd[25:0]`; bits 31..26 are ignored (R53, R66). -/
def latchedId (id : BitVec 32) : BitVec 26 := id.extractLsb' 0 26

/-- `DataSym(k)`, k = 1..26: the id bit under the mask `0x0200_0000 >> (k - 1)`, most significant bit first (R75). -/
def dataSym (id : BitVec 26) (k : Nat) : Symbol :=
  if id &&& (0x2000000#26 >>> (k - 1)) ≠ 0 then .one else .zero

/-- The Activation symbol, polarity inverted: Zero is on, One is off (R77). -/
def activationSym (act : Bool) : Symbol := if act then .zero else .one

/-- `FrameSym(k)` for latched operands (R74 to R80). An index above 33 never occurs (R19, R74): a free value (log 8). -/
def frameSym (id : BitVec 26) (unit : BitVec 8) (act : Bool) (k : Nat) : Option Symbol :=
  if k = 0 then some .sync
  else if k ≤ 26 then some (dataSym id k)
  else if k = 27 then some .one
  else if k = 28 then some (activationSym act)
  else if k = 29 ∨ k = 30 then some .one
  else if k = 31 then some (unitRead unit).1
  else if k = 32 then some (unitRead unit).2
  else if k = 33 then some .pause
  else Config.frameSymOutside id unit act k

/-- `Frame`: the symbols of one frame in emission order (R74). -/
def frame (id : BitVec 26) (unit : BitVec 8) (act : Bool) : List (Option Symbol) :=
  (List.range Config.frameSyms).map (frameSym id unit act)

/-- `FramePattern`: the levels of one frame, slot 0 first (R82). -/
def framePattern (id : BitVec 26) (unit : BitVec 8) (act : Bool) : List Level :=
  (frame id unit act).flatMap patternOf

/-- `SlotOffset(k)`: the frame-relative index of slot 0 of symbol k (R81). -/
def slotOffset (k : Nat) : Nat := if k = 0 then 0 else 11 + 8 * (k - 1)

/-- `FrameSym` of the latched command at index `k` (R74, R83: a function of `id_r`, `unit_r`, `act_r` alone). -/
def State.frameSymAt (s : State) (k : Nat) : Option Symbol := frameSym s.idR s.unitR s.actR k

/-- `FrameSym(x[sym_idx])`: the symbol now being emitted (R88, R89). -/
def State.currentSym (s : State) : Option Symbol := s.frameSymAt s.symIdx.toNat

/-- `FramePattern` of the latched command (R82, R83). -/
def State.pattern (s : State) : List Level := framePattern s.idR s.unitR s.actR

/-- The frame index of the slot that (`sym_idx`, `slot_idx`) names: `SlotOffset(sym_idx) + slot_idx` (R30, R81). -/
def State.frameSlot (s : State) : Nat := slotOffset s.symIdx.toNat + s.slotIdx.toNat

/-- The deadline compare of the block: a plain `now >= deadline` over unbounded time (R84, R116, R130). -/
def reached (now deadline : Nat) : Bool := decide (deadline ≤ now)

/-- The deadline compare of a finite implementation with a clock of `width` bits, on clock values taken modulo 2^width:
`(now - deadline) mod 2^width < 2^(width - 1)` (R130; log 18). The block of this model never calls it. -/
def reachedFinite (width : Nat) (now deadline : BitVec width) : Bool :=
  decide ((now - deadline).toNat < 2 ^ (width - 1))

end Sys2Proof.Machine
end

