-- ==== Sys2Proof/Machine/Flags.lean ====
section
/-! DEFINITION. The output ports and status flags (R13, R26), validation (R85), and the observation of `W` (R97, R104). -/

namespace Sys2Proof.Machine

/-- `busy` = `x[fsm] != IDLE` (R13, R26). -/
def State.busy (s : State) : Bool := s.fsm != .idle

/-- The `fault` port = `x[fault_reentry]` (R13, R26). -/
def State.faultPort (s : State) : Bool := s.faultReentry

/-- The `pin` port = `x[pin]` (R13, R22). -/
def State.pinPort (s : State) : Level := s.pin

/-- `u ∈ {1, 2, 3, 4}` (R54, R85). -/
def unitValid (u : BitVec 8) : Bool := decide (1 ≤ u.toNat) && decide (u.toNat ≤ 4)

/-- `Valid(u, r) = (u ∈ {1, 2, 3, 4}) and (r >= 1)` (R85). -/
def valid (u : BitVec 8) (r : BitVec 16) : Bool := unitValid u && decide (1 ≤ r.toNat)

/-- The pin's level at time `t`: the level of the last event of `W` with time at most `t`, or LOW if there is none (R97). -/
def levelAt (w : List WriteEvent) (t : Nat) : Level :=
  match (w.filter fun e => decide (e.time ≤ t)).getLast? with
  | some e => e.level
  | none => false

/-- How many of the levels are HIGH (R82, R104). -/
def highCount (ls : List Level) : Nat := ls.count true

/-- How many level changes a sequence of written levels makes on a pin that is at `before` (R104). -/
def levelChanges (before : Level) : List Level → Nat
  | [] => 0
  | l :: ls => (if l = before then 0 else 1) + levelChanges l ls

/-- The levels of write events, in emission order. -/
def levelsOf (w : List WriteEvent) : List Level := w.map WriteEvent.level

/-- The write events of one frame on the ideal schedule: slot n at `origin` + 250 n (R102). -/
def idealEvents (origin : Nat) (ls : List Level) : List WriteEvent :=
  ls.mapIdx fun n l => ⟨origin + Config.slotUs * n, l⟩

end Sys2Proof.Machine
end

