-- ==== Sys2Proof/Machine/Ops.lean ====
section
/-! DEFINITION. The named operations over the registers: the pin write (R96), raising a fault (R109), the command latch
(R86), the frame start (R87), the slot emission (R88), reset (R122), and the sampling of the inputs of a step (R84). -/

namespace Sys2Proof.Machine

/-- `Emit(level)`: write the pin and record one write event at the step's `now`, whatever the level before (R96). -/
def State.emit (level : Level) (s : State) : State :=
  { s with pin := level, w := s.w ++ [⟨s.now, level⟩] }

/-- `raise Fault(kind)`: set the sticky flag named by `kind`, and nothing else: no state is saved, no mode changes, no
control is transferred (R8, R109, R112). -/
def State.raiseFault (kind : FaultKind) (s : State) : State :=
  match kind with
  | .reentry => { s with faultReentry := true }

/-- The latch of the accepting step: `id_r`, `unit_r`, `act_r`, `reps_r` (R66, R86). -/
def State.latch (id : BitVec 32) (unit : BitVec 8) (act : Bool) (reps : BitVec 16) (s : State) : State :=
  { s with idR := latchedId id, unitR := unit, actR := act, repsR := reps }

/-- `EmitSlot` for the symbol `y`: the deadline advances by exactly 250 first, then the level of the slot that `slot_idx`
names is driven (R88, R101). -/
def State.emitSymbol (y : Symbol) (s : State) : State :=
  ({ s with tNext := s.tNext + Config.slotUs }).emit (slotLevel y s.slotIdx.toNat)

/-- `EmitSlot` for the symbol at `sym_idx` (R88). A symbol value outside the alphabet has no slots: no pin write and no
time (R72, R108; log 8). -/
def State.emitSlot (s : State) : State :=
  match s.currentSym with
  | some y => s.emitSymbol y
  | none => s

/-- The register writes of `StartFrame`: the origin of the frame is the actual `now`, once per frame (R87). -/
def State.beginFrame (s : State) : State :=
  { s with tNext := s.now, symIdx := 0, slotIdx := 0, fsm := .slot }

/-- `StartFrame(now)` (R87). -/
def State.startFrame (s : State) : State := s.beginFrame.emitSlot

/-- The place in the frame: `x[sym_idx] <- k` and `x[slot_idx] <- j` (R19, R25, R89). -/
def State.moveTo (k j : BitVec 6) (s : State) : State := { s with symIdx := k, slotIdx := j }

/-- The frame is over: the gap is timed from the actual `now` (R89). -/
def State.enterGap (s : State) : State := { s with gapEnd := s.now + Config.gapUs, fsm := .gap }

/-- One more repetition is complete (R18, R90). -/
def State.countRepetition (s : State) : State := { s with repCnt := s.repCnt + 1 }

/-- The transmission is complete: `x[fsm] <- IDLE` (R90). -/
def State.becomeIdle (s : State) : State := { s with fsm := .idle }

/-- `Reset()`: `fsm`, `pin`, `fault_reentry` and `W` take their reset values and every other register becomes unspecified:
a free value (R122, R124; U10; log 3). It records no write event. -/
def State.resetBlock (s : State) : State :=
  let d := Config.afterReset s.draws
  { s with
    fsm := .idle, pin := false, faultReentry := false, w := []
    idR := d.idR, unitR := d.unitR, actR := d.actR, repsR := d.repsR, repCnt := d.repCnt
    symIdx := d.symIdx, slotIdx := d.slotIdx, tNext := d.tNext, gapEnd := d.gapEnd
    draws := s.draws + 1 }

/-- The inputs of the next step: the environment's next planned step, or, where none is planned, a free draw whose time has
not decreased (R84, R95; U2 to U4; log 1). -/
def State.input (s : State) : StepInput :=
  match s.env with
  | i :: _ => i
  | [] =>
    let c := Config.envChoice s.draws
    ⟨c.rst, c.start, c.cmd, s.now + c.elapsed⟩

/-- The state in which the step's statements execute: the inputs taken, and `now` sampled once for the whole step (R8,
R14). -/
def State.sampled (s : State) : State :=
  match s.env with
  | i :: rest => { s with env := rest, now := i.now }
  | [] => { s with now := s.input.now, draws := s.draws + 1 }

end Sys2Proof.Machine
end

