-- ==== Sys2Proof/Machine/Symbols.lean ====
section
/-! DEFINITION. The four operations of the pulse generator (R63, R67 to R71). One execution emits one slot of the symbol's
pattern, the one `slot_idx` names, as `EmitSlot` does (R88; log 10); the scheduler executes the symbol once per slot. -/

namespace Sys2Proof.Machine

/-- SYNC: one HIGH slot, then ten LOW slots (R68). -/
def execSync (s : State) : Host.Outcome State Fault Refusal := .next (s.emitSymbol .sync)

/-- ZERO: HIGH at slots 0 and 6 of eight (R69). -/
def execZero (s : State) : Host.Outcome State Fault Refusal := .next (s.emitSymbol .zero)

/-- ONE: HIGH at slots 0 and 2 of eight (R70). -/
def execOne (s : State) : Host.Outcome State Fault Refusal := .next (s.emitSymbol .one)

/-- PAUSE: one HIGH slot, then forty-two LOW slots (R71). -/
def execPause (s : State) : Host.Outcome State Fault Refusal := .next (s.emitSymbol .pause)

end Sys2Proof.Machine
end

