-- ==== Sys2Proof/Machine/Transmit.lean ====
section
/-! DEFINITION. The TRANSMIT operation (R85, R86, R92). -/

namespace Sys2Proof.Machine

/-- TRANSMIT. From IDLE: latch the command; if it is valid, clear `rep_cnt` and start frame 0; else nothing more, `fsm`
stays IDLE (R85, R86, R106, R107). While a transmission is in progress: the command is dropped and the Reentry fault
raised (R92, R109; log 11). With `fsm` = 3 the block is stuck (R16; U6; log 6). `RSV` is ignored (R57). -/
def execTransmit (id : BitVec 32) (unit : BitVec 8) (act : Bool) (_rsv : BitVec 7) (reps : BitVec 16) (s : State) :
    Host.Outcome State Fault Refusal :=
  match s.fsm with
  | .idle =>
    let latched := s.latch id unit act reps
    if valid unit reps then .next { latched with repCnt := 0 }.startFrame else .next latched
  | .slot => .next (s.raiseFault .reentry)
  | .gap => .next (s.raiseFault .reentry)
  | .code3 => .next s

end Sys2Proof.Machine
end

