-- ==== Sys2Proof/Machine/Dispatch.lean ====
section
/-! DEFINITION. The dispatch: one arm per instruction. -/

namespace Sys2Proof.Machine

def exec (i : Instr) (s : State) : Host.Outcome State Fault Refusal :=
  match i with
  | .transmit id unit act rsv reps => Sys2Proof.Machine.execTransmit id unit act rsv reps s
  | .sync => Sys2Proof.Machine.execSync s
  | .zero => Sys2Proof.Machine.execZero s
  | .one => Sys2Proof.Machine.execOne s
  | .pause => Sys2Proof.Machine.execPause s

end Sys2Proof.Machine
end

