-- ==== Sys2Proof/Machine/Scheduler.lean ====
section
/-! DEFINITION. The frame-repetition state machine (R84 to R94): what one step does before, or instead of, executing an
operation. `schedule` moves the sequencing tuple (R25) and answers either a settled state or the code to execute next;
`step` (Step.lean) decodes and executes it. Also: how a host program becomes planned steps (R59), and how a table word
is put where the next step takes it from. -/

namespace Sys2Proof.Machine

/-- What the state machine has decided in a step. -/
inductive Sequenced where
  /-- the step ends in this state; no operation is executed -/
  | settled (s : State)
  /-- the operation this code selects is executed in this state -/
  | run (c : Code) (s : State)
deriving DecidableEq, Repr

/-- The symbol at `sym_idx` is the next operation (R88). A symbol value outside the alphabet has none: no write, no time
(R72). -/
def fetchSlot (s : State) : Sequenced :=
  match s.currentSym with
  | some y => .run (.sym2 y.code) s
  | none => .settled s

/-- `SlotDone(now)`: the next slot of the symbol, else slot 0 of the next symbol, else the gap, timed from the actual `now`
(R89; log 16). -/
def slotDone (s : State) : Sequenced :=
  if s.slotIdx.toNat + 1 < symLen s.currentSym then
    fetchSlot (s.moveTo s.symIdx (s.slotIdx + 1))
  else if s.symIdx.toNat + 1 < Config.frameSyms then
    fetchSlot (s.moveTo (s.symIdx + 1) 0)
  else
    .settled s.enterGap

/-- `GapDone(now)`: one more repetition is complete; the last one ends the transmission, another starts the next frame
(R90; log 16, log 22). -/
def gapDone (s : State) : Sequenced :=
  if s.repCnt + 1 = s.repsR then .settled s.countRepetition.becomeIdle
  else fetchSlot s.countRepetition.beginFrame

/-- The re-entry check of a step: a `start` while a transmission is in progress raises Reentry and drops the command
(R84, R92, R111). -/
def checkReentry (start : Bool) (s : State) : State := if start then s.raiseFault .reentry else s

/-- The body of `Step(rst, start, cmd, now)` on a state whose `now` is sampled (R84, R111): reset wins; then the re-entry
check; then the arm of `fsm`. With `fsm` = 3 the block makes no move (R16; U6; log 6). -/
def schedule (i : StepInput) (s : State) : Sequenced :=
  if i.rst then .settled s.resetBlock
  else
    match s.fsm with
    | .idle => if i.start then .run (.cmd64 i.cmd) s else .settled s
    | .slot =>
      let checked := checkReentry i.start s
      if reached checked.now checked.tNext then slotDone checked else .settled checked
    | .gap =>
      let checked := checkReentry i.start s
      if reached checked.now checked.gapEnd then gapDone checked else .settled checked
    | .code3 => .settled s

/-! ### Host programs -/

/-- A line of a host program (R59): `@t TRANSMIT ...` or `@t POLL`. -/
inductive HostLine where
  | transmitAt (t : Nat) (a : Asm)
  | pollAt (t : Nat)
deriving DecidableEq, Repr

/-- The command word of a code; a symbol code is no command. -/
def commandWord : Code → Option Cmd64
  | .cmd64 w => some w
  | .sym2 _ => none

/-- The step a host line describes (R59): the command word with `start` = 1, or a step with `start` = 0. None where the
line's operands are out of range. -/
def HostLine.toInput : HostLine → Option StepInput
  | .transmitAt t a => (a.assemble.bind fun i => commandWord (encode i)).map fun w => ⟨false, true, w, t⟩
  | .pollAt t => some ⟨false, false, 0, t⟩

/-- The state with a host program as the environment's plan (R59, R95; log 12). -/
def State.withProgram (p : List HostLine) (s : State) : State := { s with env := p.filterMap HostLine.toInput }

/-! ### Placing an instruction where the next step takes it from (log 12) -/

/-- A step with `start` = 0 that is planned next. -/
def State.planPoll (t : Nat) (s : State) : State := { s with env := ⟨false, false, 0, t⟩ :: s.env }

/-- A command planned for the next step: `fsm` is IDLE, the one state that accepts (R58, R86), and the next planned step
presents the word with `start` = 1 and no time passed. -/
def State.placeCommand (w : Cmd64) (s : State) : State :=
  { s with fsm := .idle, env := ⟨false, true, w, s.now⟩ :: s.env }

/-- A symbol as the next operation: the tuple stands right before slot 0 of a frame position that holds the symbol, and the
next planned step is a poll at its deadline. Sync: the end of the gap before a second repetition. Zero and One: the last
slot of Group, with the Activation symbol next. Pause: the last slot of Unit 2. -/
def State.placeSymbol (y : Symbol) (s : State) : State :=
  match y with
  | .sync => { s with fsm := .gap, repCnt := 0, repsR := 2 }.planPoll (max s.now s.gapEnd)
  | .zero => { s with fsm := .slot, symIdx := 27, slotIdx := 7, actR := true }.planPoll (max s.now s.tNext)
  | .one => { s with fsm := .slot, symIdx := 27, slotIdx := 7, actR := false }.planPoll (max s.now s.tNext)
  | .pause => { s with fsm := .slot, symIdx := 32, slotIdx := 7, unitR := 1 }.planPoll (max s.now s.tNext)

/-- A table word as the next operation; a word that is no code places nothing. -/
def State.placeTableWord (nbits w : Nat) (s : State) : State :=
  match tableCode nbits w with
  | some (.cmd64 c) => s.placeCommand c
  | some (.sym2 c) => s.placeSymbol (symbolOfCode c)
  | none => s

end Sys2Proof.Machine
end

