-- ==== Sys2Proof/Machine/Step.lean ====
section
/-! DEFINITION. One step of the machine (R84). -/

namespace Sys2Proof.Machine

/-- One evaluation of the block by the environment. A step whose `now` is smaller than the previous step's is not admitted
(R84, R129; U12; log 5). Otherwise the inputs are sampled, the state machine decides, and the operation it selects, if
any, is decoded and executed. -/
def step (s : State) : Host.Outcome State Fault Refusal :=
  if s.input.now < s.now then .refused (.nowDecreased s.now s.input.now)
  else
    match schedule s.input s.sampled with
    | .settled t => .next t
    | .run c t => exec (decode c) t

/-- `s` with a table word where the next step takes its operation from (log 12). -/
def State.withFetchWord (s : State) (nbits w : Nat) : State := s.placeTableWord nbits w

end Sys2Proof.Machine
end

