-- ==== Sys2Proof/Safety.lean ====
section
/-! DEFINITION. What a good state and a good run are, in the terms the claims use: the invariants of R30, the cadence and
the waveform of a transmission (R97 to R104), its timing (R103, R135), and the words a claim about a run needs. -/

namespace Sys2Proof.Machine

/-! ### Invariants of single states -/

/-- The sequencing invariant: the first, second and fourth item of R30, with R16, R18 and R19. `fsm` is never 3. While a
transmission is in progress the latched command is valid and `rep_cnt` is below `reps_r`. In SLOT the tuple names a slot of
the frame. -/
def SeqInv (s : State) : Prop :=
  s.fsm ≠ .code3 ∧
  (s.busy = true → unitValid s.unitR = true ∧ 1 ≤ s.repsR.toNat ∧ s.repCnt.toNat < s.repsR.toNat) ∧
  (s.fsm = .slot → s.symIdx.toNat ≤ 33 ∧ s.slotIdx.toNat < symLen s.currentSym)

/-- The times of `W` do not decrease and none lies after the last sampled `now` (R45, R99). -/
def TimeInv (s : State) : Prop :=
  s.w.Pairwise (fun a b => a.time ≤ b.time) ∧ ∀ e ∈ s.w, e.time ≤ s.now

/-- The level of the last event of a log, LOW if it has none (R97). -/
def lastLevel (w : List WriteEvent) : Level :=
  match w.getLast? with
  | some e => e.level
  | none => false

/-- The pin holds the level last emitted since the last reset (R22, R97). -/
def PinInv (s : State) : Prop := s.pin = lastLevel s.w

/-- The pin is LOW in IDLE and in every gap, and in SLOT it holds the level of the slot that the tuple names (R16, R73,
R90). -/
def QuietInv (s : State) : Prop :=
  (s.fsm = .idle ∨ s.fsm = .gap → s.pin = false) ∧
  (s.fsm = .slot → ∃ y, s.currentSym = some y ∧ s.pin = slotLevel y s.slotIdx.toNat)

/-- No wait is longer than a slot, or than the gap: the deadline lies at most 250 µs, or 35000 µs, after the last step
(R99, R103). -/
def DeadlineInv (s : State) : Prop :=
  (s.fsm = .slot → s.tNext ≤ s.now + Config.slotUs) ∧ (s.fsm = .gap → s.gapEnd ≤ s.now + Config.gapUs)

/-- No command has been lost since the last reset: the premise of a claim about a run (R94, R109). -/
def NoCommandLost (s : State) : Prop := s.faultReentry = false

/-! ### The waveform of a transmission -/

/-- Write events of one frame with origin `origin`: the first at the origin, and the one of slot n never before its target
`origin + 250 n` (R99). -/
def OnCadence (origin : Nat) (evs : List WriteEvent) : Prop :=
  ∀ n e, evs[n]? = some e → (n = 0 → e.time = origin) ∧ origin + Config.slotUs * n ≤ e.time

/-- The levels of `n` whole frames of the latched command, one after the other (R83, R104). -/
def State.frames (n : Nat) (s : State) : List Level := (List.replicate n s.pattern).flatten

/-- The third item of R30 with the deadline law R99, over the log: since the transmission was accepted, when the log was
`before`, `W` has grown by `rep_cnt` whole frames and the slots of the current frame up to the one on the pin, on the
cadence of that frame's origin; `t_next` is the target of the next slot. In a gap the current frame is whole, and the gap
ends no sooner than 112500 µs after its origin (R103). -/
def WaveInv (before : List WriteEvent) (s : State) : Prop :=
  (s.fsm = .slot → ∃ done current origin,
    s.w = before ++ done ++ current ∧ levelsOf done = s.frames s.repCnt.toNat ∧
    levelsOf current = s.pattern.take (s.frameSlot + 1) ∧ current.length = s.frameSlot + 1 ∧
    OnCadence origin current ∧ s.tNext = origin + Config.slotUs * (s.frameSlot + 1)) ∧
  (s.fsm = .gap → ∃ done current origin,
    s.w = before ++ done ++ current ∧ levelsOf done = s.frames s.repCnt.toNat ∧
    levelsOf current = s.pattern ∧ current.length = Config.frameSlots ∧
    OnCadence origin current ∧ origin + Config.slotUs * Config.frameSlots + Config.gapUs ≤ s.gapEnd)

/-- How many slots of the current transmission have been written (R104). -/
def State.slotsWritten (s : State) : Nat :=
  match s.fsm with
  | .slot => Config.frameSlots * s.repCnt.toNat + s.frameSlot + 1
  | .gap => Config.frameSlots * s.repCnt.toNat + Config.frameSlots
  | .idle => 0
  | .code3 => 0

/-! ### Timing and progress -/

/-- The least length of one repetition: 310 slots and the gap, 112500 µs (R103, R135). -/
def repetitionUs : Nat := Config.slotUs * Config.frameSlots + Config.gapUs

/-- No deadline of a transmission accepted at time `accepted` lies before the ideal schedule (R103). -/
def NotBeforeIdeal (accepted : Nat) (s : State) : Prop :=
  (s.fsm = .slot → accepted + repetitionUs * s.repCnt.toNat + Config.slotUs * (s.frameSlot + 1) ≤ s.tNext) ∧
  (s.fsm = .gap → accepted + repetitionUs * (s.repCnt.toNat + 1) ≤ s.gapEnd)

/-- Every deadline of a transmission accepted at time `accepted` is exactly that of the ideal schedule (R102, R103). -/
def OnIdeal (accepted : Nat) (s : State) : Prop :=
  (s.fsm = .slot → s.tNext = accepted + repetitionUs * s.repCnt.toNat + Config.slotUs * (s.frameSlot + 1)) ∧
  (s.fsm = .gap → s.gapEnd = accepted + repetitionUs * (s.repCnt.toNat + 1))

/-- The deadline that the next move of the state machine waits for; none where it waits for no deadline (R16, R116). -/
def State.deadline (s : State) : Option Nat :=
  match s.fsm with
  | .slot => some s.tNext
  | .gap => some s.gapEnd
  | .idle => none
  | .code3 => none

/-- How many moves a transmission still needs until `busy` falls: 310 ends of a slot and one end of a gap for each
repetition (R89, R90). -/
def State.movesLeft (s : State) : Nat :=
  match s.fsm with
  | .slot => 311 * (s.repsR.toNat - s.repCnt.toNat - 1) + (Config.frameSlots - s.frameSlot) + 1
  | .gap => 311 * (s.repsR.toNat - s.repCnt.toNat - 1) + 1
  | .idle => 0
  | .code3 => 0

/-- Planned steps with `rst` = 0 and `start` = 0 at the given times: the host polls (R59). -/
def polls (ts : List Nat) : List StepInput := ts.map fun t => ⟨false, false, 0, t⟩

/-- Times each of which lies at least `gap` after the one before it, the first after `prev`. -/
def Spaced (gap : Nat) : Nat → List Nat → Prop
  | _, [] => True
  | prev, t :: ts => prev + gap ≤ t ∧ Spaced gap t ts

end Sys2Proof.Machine
end

