-- ==== Sys2Proof/Certificates/Slice0/Obligations.lean ====
section
/-! DEFINITION. The statements for the provers. Each docstring names what of spec/ it formalises; a statement that rests on
a choice of the model names the log entry. -/

open Sys2Proof Sys2Proof.Machine

/-! ### Encoding and decoding -/

/-- Decoding the bytes of an instruction's encoding gives the instruction back, every field at every value (R39, R50 to R52,
R66; the byte of a symbol code is the model's, log 13). -/
def Obligations.DecodeOfEncodedBytes : Prop := ∀ i : Instr, decodeBytes (encode i).toBytes = .ok i

/-- Every byte string that decodes is the encoding of what it decodes to: no bit of an encoding is dropped (R52, R64; log
13). -/
def Obligations.EncodeOfDecodedBytes : Prop :=
  ∀ (bs : List Byte) (i : Instr), decodeBytes bs = .ok i → (encode i).toBytes = bs

/-- Which bytes are refused: those of no format's width, and a single byte above 3, which names no symbol (R65, R72; log
13). -/
def Obligations.RejectedBytes : Prop :=
  (∀ bs : List Byte, decodeBytes bs = .error .noSuchWidth ↔ bs.length ≠ 1 ∧ bs.length ≠ 8) ∧
  (∀ bs : List Byte, decodeBytes bs = .error .unrecognisedSymbol ↔ ∃ b : Byte, bs = [b] ∧ 4 ≤ b.toNat)

/-- Words written out in 95_test_vectors.md section 2.1 (E1, E3, E9, E11) and the codes of R51. -/
def Obligations.DecodedSampleWords : Prop :=
  decode (.cmd64 0x0001010100000001#64) = .transmit 1 1 true 0 1 ∧
  decode (.cmd64 0x0002000203FFFFFF#64) = .transmit 0x3FFFFFF 2 false 0 2 ∧
  decode (.cmd64 0x00040103FC000005#64) = .transmit 0xFC000005 3 true 0 4 ∧
  decode (.cmd64 0x0001FF0100000001#64) = .transmit 1 1 true 0x7F 1 ∧
  decode (.sym2 0b00#2) = .sync ∧ decode (.sym2 0b01#2) = .zero ∧
  decode (.sym2 0b10#2) = .one ∧ decode (.sym2 0b11#2) = .pause

/-- The assembler's word is the formula of R59, and the three-operand form is the four-operand form with reps 4; an operand
out of its range has no word. -/
def Obligations.AssemblerWord : Prop :=
  ∀ (id unit : Nat) (act : Bool) (reps : Nat),
    (id < 2 ^ 32 → unit < 2 ^ 8 → reps < 2 ^ 16 →
      ∃ i, (Asm.transmit id unit act reps).assemble = some i ∧ i.wellFormed = true ∧
        encode i = .cmd64 (Asm.formulaWord id unit act reps)) ∧
    (¬ (id < 2 ^ 32 ∧ unit < 2 ^ 8 ∧ reps < 2 ^ 16) → (Asm.transmit id unit act reps).assemble = none) ∧
    (Asm.transmitDefault id unit act).assemble = (Asm.transmit id unit act 4).assemble

/-- A software repetition count of any size is split into commands whose counts add up to it, and no command but a lone one
for a count of 0 has the count 0 (R95, R134; the order is the model's, log 17). -/
def Obligations.SplitRepetitionsAddUp : Prop :=
  ∀ c : Call, (c.repsFields.map BitVec.toNat).sum = c.repetitions ∧ c.repsFields ≠ [] ∧
    (c.repetitions ≠ 0 → ∀ r ∈ c.repsFields, 1 ≤ r.toNat)

/-- A software unit becomes a valid `UNIT` field exactly when it is 1 to 4, and then unchanged: never by reduction modulo
256 (R95, R134). The low 26 bits of a software id reach `ID`. -/
def Obligations.HostUnitNeverAliases : Prop :=
  ∀ c : Call, (unitValid c.unitField = true ↔ 1 ≤ c.unit ∧ c.unit ≤ 4) ∧
    (1 ≤ c.unit ∧ c.unit ≤ 4 → (c.unitField.toNat : Int) = c.unit) ∧
    latchedId c.idField = BitVec.ofInt 26 c.id

/-! ### The symbol encoder -/

/-- R68, SYNC: its code, its ROM word, its pattern and duration; the first slots of every frame. -/
def Obligations.SyncRule : Prop :=
  encode .sync = .sym2 0b00#2 ∧ decode (.sym2 0b00#2) = .sync ∧ romRead .sync = (11#6, 0x1#43) ∧
  patternOf (some .sync) = true :: List.replicate 10 false ∧ 250 * symLen (some .sync) = 2750 ∧
  ∀ id unit act, (framePattern id unit act).take 11 = true :: List.replicate 10 false

/-- R69, ZERO: its code, its ROM word, its pattern and duration, and that a data bit 0 is this symbol. -/
def Obligations.ZeroRule : Prop :=
  encode .zero = .sym2 0b01#2 ∧ decode (.sym2 0b01#2) = .zero ∧ romRead .zero = (8#6, 0x41#43) ∧
  patternOf (some .zero) = [true, false, false, false, false, false, true, false] ∧
  250 * symLen (some .zero) = 2000 ∧
  ∀ (id : BitVec 26) (unit : BitVec 8) (act : Bool) (k : Nat), 1 ≤ k → k ≤ 26 → id.getLsbD (26 - k) = false →
    patternOf (frameSym id unit act k) = [true, false, false, false, false, false, true, false]

/-- R70, ONE: its code, its ROM word, its pattern and duration, and that a data bit 1 is this symbol. -/
def Obligations.OneRule : Prop :=
  encode .one = .sym2 0b10#2 ∧ decode (.sym2 0b10#2) = .one ∧ romRead .one = (8#6, 0x5#43) ∧
  patternOf (some .one) = [true, false, true, false, false, false, false, false] ∧
  250 * symLen (some .one) = 2000 ∧
  ∀ (id : BitVec 26) (unit : BitVec 8) (act : Bool) (k : Nat), 1 ≤ k → k ≤ 26 → id.getLsbD (26 - k) = true →
    patternOf (frameSym id unit act k) = [true, false, true, false, false, false, false, false]

/-- R71, PAUSE: its code, its ROM word, its pattern and duration, that no pattern is longer, and the last slots, 267 to
309, of every frame of a valid unit. -/
def Obligations.PauseRule : Prop :=
  encode .pause = .sym2 0b11#2 ∧ decode (.sym2 0b11#2) = .pause ∧ romRead .pause = (43#6, 0x1#43) ∧
  patternOf (some .pause) = true :: List.replicate 42 false ∧ 250 * symLen (some .pause) = 10750 ∧
  (∀ y, symLen y ≤ symLen (some .pause)) ∧
  ∀ id unit act, unitValid unit = true →
    (framePattern id unit act).drop 267 = true :: List.replicate 42 false

/-- R88 and R96 for the operations SYNC, ZERO, ONE and PAUSE: executed at a slot of its pattern, each advances the deadline
by 250, drives the level of that slot, records it, and leaves everything else unchanged. That one execution emits one slot
is the model's choice (log 10). -/
def Obligations.SymbolOperationsEmitOneSlot : Prop :=
  ∀ s : State,
    (s.slotIdx.toNat < 11 → exec .sync s = .next { s with
      tNext := s.tNext + 250, pin := decide (s.slotIdx.toNat = 0)
      w := s.w ++ [⟨s.now, decide (s.slotIdx.toNat = 0)⟩] }) ∧
    (s.slotIdx.toNat < 8 → exec .zero s = .next { s with
      tNext := s.tNext + 250, pin := decide (s.slotIdx.toNat = 0 ∨ s.slotIdx.toNat = 6)
      w := s.w ++ [⟨s.now, decide (s.slotIdx.toNat = 0 ∨ s.slotIdx.toNat = 6)⟩] }) ∧
    (s.slotIdx.toNat < 8 → exec .one s = .next { s with
      tNext := s.tNext + 250, pin := decide (s.slotIdx.toNat = 0 ∨ s.slotIdx.toNat = 2)
      w := s.w ++ [⟨s.now, decide (s.slotIdx.toNat = 0 ∨ s.slotIdx.toNat = 2)⟩] }) ∧
    (s.slotIdx.toNat < 43 → exec .pause s = .next { s with
      tNext := s.tNext + 250, pin := decide (s.slotIdx.toNat = 0)
      w := s.w ++ [⟨s.now, decide (s.slotIdx.toNat = 0)⟩] })

/-- The four symbol operations answer a next state in every state, whatever `slot_idx` holds: at a slot index of the symbol
the level is that of its pattern; from its LEN up to 42 the bit of PAT is 0 (R36), so LOW; above that the level is free
(log 9). Everything else is as at a slot of the pattern (R88; log 10). -/
def Obligations.SymbolsCompleteInEveryState : Prop :=
  ∀ (y : Symbol) (s : State), ∃ level, exec y.instr s = .next { s with
      tNext := s.tNext + 250, pin := level, w := s.w ++ [⟨s.now, level⟩] } ∧
    (s.slotIdx.toNat < symLen (some y) → (patternOf (some y))[s.slotIdx.toNat]? = some level) ∧
    (symLen (some y) ≤ s.slotIdx.toNat → s.slotIdx.toNat < 43 → level = false)

/-- R73: every pattern starts HIGH and ends LOW, has no two adjacent HIGH slots, one HIGH slot for Sync and Pause and two
for Zero and One, and Zero and One differ in slots 2 and 6 only. An unrecognised symbol has no slots (R72). -/
def Obligations.PatternProperties : Prop :=
  (∀ y : Symbol, (patternOf (some y)).head? = some true ∧ (patternOf (some y)).getLast? = some false ∧
    (∀ j, (patternOf (some y))[j]? = some true → (patternOf (some y))[j + 1]? = some false) ∧
    highCount (patternOf (some y)) = if y = .sync ∨ y = .pause then 1 else 2) ∧
  (∀ j, (patternOf (some .zero))[j]? ≠ (patternOf (some .one))[j]? ↔ j = 2 ∨ j = 6) ∧
  patternOf none = []

/-! ### Frame assembly -/

/-- R75: data symbol k is One exactly where bit 26 - k of the latched id, that is of the `ID` field, is 1. -/
def Obligations.DataSymReadsIdBit : Prop :=
  ∀ (id : BitVec 26) (field : BitVec 32) (k : Nat), 1 ≤ k → k ≤ 26 →
    dataSym id k = (if id.getLsbD (26 - k) then Symbol.one else Symbol.zero) ∧
    dataSym (latchedId field) k = (if field.getLsbD (26 - k) then Symbol.one else Symbol.zero)

/-- R76 and R78: the Group field and the two Channel fields are One in every frame, and the slots they occupy. -/
def Obligations.GroupAndChannelAreOne : Prop :=
  ∀ (id : BitVec 26) (unit : BitVec 8) (act : Bool),
    frameSym id unit act 27 = some .one ∧ frameSym id unit act 29 = some .one ∧ frameSym id unit act 30 = some .one ∧
    ((framePattern id unit act).drop 219).take 8 = [true, false, true, false, false, false, false, false] ∧
    ((framePattern id unit act).drop 235).take 16 =
      [true, false, true, false, false, false, false, false, true, false, true, false, false, false, false, false]

/-- R77: the Activation field, with its polarity inverted, and the slots it occupies. -/
def Obligations.ActivationIsInverted : Prop :=
  ∀ (id : BitVec 26) (unit : BitVec 8) (act : Bool),
    frameSym id unit act 28 = some (if act = true then .zero else .one) ∧
    ((framePattern id unit act).drop 227).take 8 =
      if act = true then [true, false, false, false, false, false, true, false]
      else [true, false, true, false, false, false, false, false]

/-- R79: the Unit fields are the unit table's pair, equal on 1 to 4 to the two bits of 4 - unit, and the slots of unit 2. -/
def Obligations.UnitFieldsAreTheTable : Prop :=
  (∀ (id : BitVec 26) (unit : BitVec 8) (act : Bool),
    frameSym id unit act 31 = some (unitRead unit).1 ∧ frameSym id unit act 32 = some (unitRead unit).2) ∧
  unitRead 1 = (.one, .one) ∧ unitRead 2 = (.one, .zero) ∧ unitRead 3 = (.zero, .one) ∧ unitRead 4 = (.zero, .zero) ∧
  (∀ unit : BitVec 8, unitValid unit = true → unitRead unit =
    (if (4 - unit.toNat).testBit 1 then .one else .zero, if (4 - unit.toNat).testBit 0 then .one else .zero)) ∧
  (∀ (id : BitVec 26) (act : Bool), ((framePattern id 2 act).drop 251).take 16 =
    [true, false, true, false, false, false, false, false, true, false, false, false, false, false, true, false])

/-- R80: Sync and Pause frame every frame, a frame has 34 symbols, and which fields vary with which operand. -/
def Obligations.SyncAndPauseFrameEveryFrame : Prop :=
  ∀ (id id' : BitVec 26) (unit unit' : BitVec 8) (act act' : Bool),
    frameSym id unit act 0 = some .sync ∧ frameSym id unit act 33 = some .pause ∧ (frame id unit act).length = 34 ∧
    (∀ k ∈ [0, 27, 29, 30, 33], frameSym id unit act k = frameSym id' unit' act' k) ∧
    (∀ k, 1 ≤ k → k ≤ 26 → frameSym id unit act k = frameSym id unit' act' k) ∧
    frameSym id unit act 28 = frameSym id' unit' act 28 ∧
    frameSym id unit act 31 = frameSym id' unit act' 31 ∧ frameSym id unit act 32 = frameSym id' unit act' 32

/-- R81: slot j of symbol k stands at `SlotOffset(k) + j` of the frame, and a frame has 310 slots. -/
def Obligations.SlotAddressing : Prop :=
  ∀ (id : BitVec 26) (unit : BitVec 8) (act : Bool), unitValid unit = true →
    (framePattern id unit act).length = 310 ∧
    ∀ k j, k ≤ 33 → j < symLen (frameSym id unit act k) →
      (framePattern id unit act)[slotOffset k + j]? = (patternOf (frameSym id unit act k))[j]?

/-- R82 and R104: a frame has 66 HIGH slots, every HIGH slot is followed by a LOW one, the two HIGH slots of each payload
symbol stand where R82 says, and from a LOW pin a frame makes 132 level changes and ends LOW. -/
def Obligations.FramePulses : Prop :=
  ∀ (id : BitVec 26) (unit : BitVec 8) (act : Bool), unitValid unit = true →
    highCount (framePattern id unit act) = 66 ∧
    levelChanges false (framePattern id unit act) = 132 ∧
    (framePattern id unit act).getLast? = some false ∧
    (∀ n, (framePattern id unit act)[n]? = some true → (framePattern id unit act)[n + 1]? = some false) ∧
    ∀ k, 1 ≤ k → k ≤ 32 →
      (framePattern id unit act)[slotOffset k]? = some true ∧
      (framePattern id unit act)[slotOffset k + 2]? = some (decide (frameSym id unit act k = some .one)) ∧
      (framePattern id unit act)[slotOffset k + 6]? = some (decide (frameSym id unit act k = some .zero))

/-! ### TRANSMIT -/

/-- R86 with R85 and R87: TRANSMIT in IDLE latches the command; a valid one clears `rep_cnt`, raises `busy` and emits slot
0 of Sync at `now`, an invalid one does nothing more (that the other registers keep their values in IDLE is the model's
choice, log 22). -/
def Obligations.TransmitAccepts : Prop :=
  ∀ (id : BitVec 32) (unit : BitVec 8) (act : Bool) (rsv : BitVec 7) (reps : BitVec 16) (s : State), s.fsm = .idle →
    ((unit = 1 ∨ unit = 2 ∨ unit = 3 ∨ unit = 4) ∧ 1 ≤ reps.toNat →
      exec (.transmit id unit act rsv reps) s = .next { s with
        idR := id.extractLsb' 0 26, unitR := unit, actR := act, repsR := reps, repCnt := 0
        tNext := s.now + 250, symIdx := 0, slotIdx := 0, fsm := .slot
        pin := true, w := s.w ++ [⟨s.now, true⟩] }) ∧
    (¬ ((unit = 1 ∨ unit = 2 ∨ unit = 3 ∨ unit = 4) ∧ 1 ≤ reps.toNat) →
      exec (.transmit id unit act rsv reps) s = .next { s with
        idR := id.extractLsb' 0 26, unitR := unit, actR := act, repsR := reps })

/-- R106 and R107: a step that presents a command with a unit outside 1 to 4, or with `REPS` = 0, ends with no pin write,
`busy` still 0 and `fault` unchanged; the block waits for nothing. -/
def Obligations.InvalidCommandIsSilent : Prop :=
  ∀ s : State, s.fsm = .idle → s.now ≤ s.input.now → s.input.rst = false → s.input.start = true →
    (¬ (1 ≤ (s.input.cmd.extractLsb' 32 8).toNat ∧ (s.input.cmd.extractLsb' 32 8).toNat ≤ 4) ∨
      (s.input.cmd.extractLsb' 48 16).toNat = 0) →
    ∃ t, step s = .next t ∧ t.fsm = .idle ∧ t.busy = false ∧ t.pin = s.pin ∧ t.w = s.w ∧
      t.faultReentry = s.faultReentry ∧ t.deadline = none

/-- R92 and R109 for the operation itself: TRANSMIT while a transmission is in progress sets the Reentry flag and nothing
else (that the operation, and not only the step, does so is the model's reading, log 11); with `fsm` = 3 it does nothing
(log 6). -/
def Obligations.TransmitWhileBusy : Prop :=
  ∀ (id : BitVec 32) (unit : BitVec 8) (act : Bool) (rsv : BitVec 7) (reps : BitVec 16) (s : State),
    (s.fsm = .slot ∨ s.fsm = .gap → exec (.transmit id unit act rsv reps) s = .next { s with faultReentry := true }) ∧
    (s.fsm = .code3 → exec (.transmit id unit act rsv reps) s = .next s)

/-- R53, R57, R64: two command words that differ only in `cmd[31:26]` and `cmd[47:41]` do the same in every state. -/
def Obligations.IgnoredCommandBits : Prop :=
  ∀ (a b : Cmd64) (s : State),
    (∀ j, j < 64 → ¬ (26 ≤ j ∧ j ≤ 31) → ¬ (41 ≤ j ∧ j ≤ 47) → a.getLsbD j = b.getLsbD j) →
    exec (decode (.cmd64 a)) s = exec (decode (.cmd64 b)) s

/-- R66: the four latched registers are slices of the command word, whether or not the command is valid (that an invalid
command's latch is kept in IDLE is the model's choice, log 22). -/
def Obligations.LatchedSlices : Prop :=
  ∀ (cmd : Cmd64) (s : State), s.fsm = .idle → ∃ t, exec (decode (.cmd64 cmd)) s = .next t ∧
    (∀ j, j < 26 → t.idR.getLsbD j = cmd.getLsbD j) ∧ (∀ j, j < 8 → t.unitR.getLsbD j = cmd.getLsbD (32 + j)) ∧
    t.actR = cmd.getLsbD 40 ∧ (∀ j, j < 16 → t.repsR.getLsbD j = cmd.getLsbD (48 + j))

/-! ### One step -/

/-- A step runs the operation that the state machine selects: a command word presented in IDLE (R58, R84); in SLOT at the
deadline, the symbol at the next place of the tuple, with the tuple moved there (R88, R89); at the end of a gap before a
further repetition, Sync, with the frame begun (R87, R90). The re-entry check comes first (R84). That a step runs a symbol's
operation for one slot is the model's reading (log 10). -/
def Obligations.StepRunsTheDecodedOperation : Prop :=
  ∀ s : State, s.now ≤ s.input.now → s.input.rst = false →
    (s.fsm = .idle → s.input.start = true → step s = exec (decode (.cmd64 s.input.cmd)) s.sampled) ∧
    (∀ y, s.fsm = .slot → s.tNext ≤ s.input.now → s.slotIdx.toNat + 1 < symLen s.currentSym → s.currentSym = some y →
      step s = exec (decode (.sym2 y.code)) ((checkReentry s.input.start s.sampled).moveTo s.symIdx (s.slotIdx + 1))) ∧
    (∀ y, s.fsm = .slot → s.tNext ≤ s.input.now → symLen s.currentSym ≤ s.slotIdx.toNat + 1 → s.symIdx.toNat + 1 < 34 →
      s.frameSymAt (s.symIdx.toNat + 1) = some y →
      step s = exec (decode (.sym2 y.code))
        ((checkReentry s.input.start s.sampled).moveTo (s.symIdx + 1) 0)) ∧
    (s.fsm = .gap → s.gapEnd ≤ s.input.now → s.repCnt + 1 ≠ s.repsR →
      step s = exec (decode (.sym2 Symbol.sync.code))
        (checkReentry s.input.start s.sampled).countRepetition.beginFrame)

/-- Every operation answers a next state in every state, and so does every admitted step: nothing ends a run but a clock
that runs backwards (R64, R105). -/
def Obligations.AdmittedStepsComplete : Prop :=
  (∀ (i : Instr) (s : State), ∃ t, exec i s = .next t) ∧ ∀ s : State, s.now ≤ s.input.now → ∃ t, step s = .next t

/-- R129 and U12: a step whose `now` is smaller than the previous step's is not admitted, whatever else it carries. -/
def Obligations.DecreasingTimeIsRefused : Prop :=
  ∀ s : State, s.input.now < s.now → step s = .refused (.nowDecreased s.now s.input.now)

/-- R125, with R111, R122 and R124: a step with `rst` = 1, from any state, leaves IDLE, LOW, no fault and an empty log, and
what `start` and `cmd` carry in it changes nothing. The registers it leaves unspecified are not said (log 3). -/
def Obligations.ResetFromAnyState : Prop :=
  (∀ s : State, s.now ≤ s.input.now → s.input.rst = true →
    ∃ t, step s = .next t ∧ t.fsm = .idle ∧ t.pin = false ∧ t.faultReentry = false ∧ t.w = [] ∧ t.busy = false ∧
      t.now = s.input.now ∧ t.env = s.env.tail) ∧
  ∀ (s : State) (i : StepInput) (start : Bool) (cmd : Cmd64) (rest : List StepInput), i.rst = true →
    step { s with env := i :: rest } = step { s with env := { i with start := start, cmd := cmd } :: rest }

/-- R91: a waiting step changes no register, writes no pin and records no event, but for the flag of a re-entry. What it
does change is the model's account of the inputs: the last sampled time, the plan and the count of draws. -/
def Obligations.WaitingStepChangesNothing : Prop :=
  ∀ s : State, s.now ≤ s.input.now → s.input.rst = false →
    ((s.fsm = .slot ∧ s.input.now < s.tNext) ∨ (s.fsm = .gap ∧ s.input.now < s.gapEnd) ∨
      (s.fsm = .idle ∧ s.input.start = false)) →
    ∃ d, step s = .next { s with
      faultReentry := s.faultReentry || (s.busy && s.input.start), now := s.input.now, env := s.env.tail, draws := d }

/-- R92, R111: a `start` while a transmission is in progress sets `fault_reentry`; in every other respect the step is the
step without the `start`. -/
def Obligations.ReentryOnlySetsTheFlag : Prop :=
  ∀ (s : State) (i : StepInput) (rest : List StepInput), s.fsm = .slot ∨ s.fsm = .gap → i.rst = false → s.now ≤ i.now →
    ∃ t, step { s with env := { i with start := false } :: rest } = .next t ∧
      step { s with env := { i with start := true } :: rest } = .next { t with faultReentry := true }

/-- R133, with R48 and R93: the block reads `cmd` in the step that accepts a command and in no other. -/
def Obligations.CommandIsReadAtAcceptanceOnly : Prop :=
  ∀ (s : State) (i : StepInput) (cmd : Cmd64) (rest : List StepInput),
    ¬ (s.fsm = .idle ∧ i.start = true ∧ i.rst = false) →
    step { s with env := i :: rest } = step { s with env := { i with cmd := cmd } :: rest }

/-- R89: the end of a slot's wait. The next slot of the symbol, else slot 0 of the next symbol, whose level is HIGH, else
the gap, timed from the actual `now`. Everything else is unchanged, but for the re-entry flag. -/
def Obligations.SlotDoneMoves : Prop :=
  ∀ s : State, s.now ≤ s.input.now → s.input.rst = false → s.fsm = .slot → s.tNext ≤ s.input.now →
    (∀ y, s.currentSym = some y → s.slotIdx.toNat + 1 < symLen (some y) → ∃ d, step s = .next { s with
      slotIdx := s.slotIdx + 1, tNext := s.tNext + 250, pin := slotLevel y (s.slotIdx.toNat + 1)
      w := s.w ++ [⟨s.input.now, slotLevel y (s.slotIdx.toNat + 1)⟩]
      faultReentry := s.faultReentry || s.input.start, now := s.input.now, env := s.env.tail, draws := d }) ∧
    (symLen s.currentSym ≤ s.slotIdx.toNat + 1 → s.symIdx.toNat < 33 → unitValid s.unitR = true →
      ∃ d, step s = .next { s with
      symIdx := s.symIdx + 1, slotIdx := 0, tNext := s.tNext + 250, pin := true, w := s.w ++ [⟨s.input.now, true⟩]
      faultReentry := s.faultReentry || s.input.start, now := s.input.now, env := s.env.tail, draws := d }) ∧
    (symLen s.currentSym ≤ s.slotIdx.toNat + 1 → 33 ≤ s.symIdx.toNat → ∃ d, step s = .next { s with
      gapEnd := s.input.now + 35000, fsm := .gap
      faultReentry := s.faultReentry || s.input.start, now := s.input.now, env := s.env.tail, draws := d })

/-- R90: the end of a gap. After the last repetition `busy` falls, else the next frame starts at the actual `now` with slot
0 of Sync. Everything else is unchanged, but for the re-entry flag (that the registers keep their values in IDLE is the
model's choice, log 22). -/
def Obligations.GapDoneMoves : Prop :=
  ∀ s : State, s.now ≤ s.input.now → s.input.rst = false → s.fsm = .gap → s.gapEnd ≤ s.input.now →
    (s.repCnt + 1 = s.repsR → ∃ d, step s = .next { s with
      repCnt := s.repCnt + 1, fsm := .idle
      faultReentry := s.faultReentry || s.input.start, now := s.input.now, env := s.env.tail, draws := d }) ∧
    (s.repCnt + 1 ≠ s.repsR → ∃ d, step s = .next { s with
      repCnt := s.repCnt + 1, symIdx := 0, slotIdx := 0, fsm := .slot, tNext := s.input.now + 250, pin := true
      w := s.w ++ [⟨s.input.now, true⟩]
      faultReentry := s.faultReentry || s.input.start, now := s.input.now, env := s.env.tail, draws := d })

/-- R16 and U6: with `fsm` = 3 a step without reset makes no move and emits nothing (that it does not set the Reentry flag
either is the model's reading, log 6). -/
def Obligations.StuckUntilReset : Prop :=
  ∀ s : State, s.now ≤ s.input.now → s.input.rst = false → s.fsm = .code3 →
    ∃ d, step s = .next { s with now := s.input.now, env := s.env.tail, draws := d }

/-- R96: in one step the pin is written at most once; a write records one event at the step's `now`, and apart from reset
nothing else changes the pin or the log. -/
def Obligations.PinAndLogChangeTogether : Prop :=
  ∀ s t : State, step s = .next t → s.input.rst = false →
    (t.pin = s.pin ∧ t.w = s.w) ∨ t.w = s.w ++ [⟨s.input.now, t.pin⟩]

/-- R101 and R87: inside a frame the deadline grows by exactly 250 with each slot written and is never set from `now`;
only the start of a frame sets it from `now`. -/
def Obligations.DeadlineIsDriftFree : Prop :=
  ∀ s t : State, step s = .next t → s.input.rst = false → t.fsm = .slot →
    (s.fsm = .slot → t.tNext + 250 * s.w.length = s.tNext + 250 * t.w.length) ∧
    (s.fsm ≠ .slot → t.tNext = s.input.now + 250)

/-- R132: when a poll comes 250 µs or more after the deadline, a second poll at the same time writes the slot after it too:
the slot between has no length, the deadlines stay on the frame's grid, and no fault is raised. -/
def Obligations.CatchUpCollapse : Prop :=
  ∀ (s : State) (n : Nat) (rest : List StepInput), SeqInv s → s.fsm = .slot → s.frameSlot + 2 < 310 →
    s.now ≤ n → s.tNext + 250 ≤ n → s.env = polls [n, n] ++ rest →
    ∃ t a b, Host.Core.run core 2 s = .next t ∧ t.w = s.w ++ [⟨n, a⟩, ⟨n, b⟩] ∧ t.tNext = s.tNext + 500 ∧
      t.frameSlot = s.frameSlot + 2 ∧ t.faultReentry = s.faultReentry

/-! ### Invariants -/

/-- The state right after reset meets every invariant (R30, R121; that the registers a reset leaves unspecified hold 0 is
the model's, log 2, and no invariant rests on it). -/
def Obligations.ResetMeetsTheInvariants : Prop :=
  SeqInv State.reset ∧ TimeInv State.reset ∧ PinInv State.reset ∧ QuietInv State.reset ∧ DeadlineInv State.reset ∧
    NoCommandLost State.reset ∧ (∀ before, WaveInv before State.reset) ∧
    State.reset.fsm = .idle ∧ State.reset.pin = false ∧ State.reset.busy = false ∧ State.reset.w = []

/-- R30, first, second and fourth item: every step keeps the sequencing invariant. -/
def Obligations.StepKeepsSequencing : Prop := ∀ s t : State, SeqInv s → step s = .next t → SeqInv t

/-- R45, R129: every step keeps the log in time order, none of it later than `now`. -/
def Obligations.StepKeepsTimeOrder : Prop := ∀ s t : State, TimeInv s → step s = .next t → TimeInv t

/-- R22, R97: every step keeps the pin at the level last emitted. -/
def Obligations.StepKeepsPinAtLastLevel : Prop := ∀ s t : State, PinInv s → step s = .next t → PinInv t

/-- R73, R90, R94: every step keeps the pin LOW in IDLE and in every gap, and in SLOT at the level of the slot the tuple
names. -/
def Obligations.StepKeepsPinQuiet : Prop :=
  ∀ s t : State, SeqInv s → QuietInv s → step s = .next t → QuietInv t

/-- R99: every step keeps the deadline within one slot, or one gap, of the last step. -/
def Obligations.StepKeepsDeadlineNear : Prop := ∀ s t : State, DeadlineInv s → step s = .next t → DeadlineInv t

/-- R73 (c): no two write events in a row are HIGH, so every HIGH pulse is one slot long; every step keeps it. -/
def Obligations.PulsesAreOneSlotLong : Prop :=
  ∀ s t : State, SeqInv s → QuietInv s → PinInv s →
    (∀ n, (levelsOf s.w)[n]? = some true → (levelsOf s.w)[n + 1]? ≠ some true) → step s = .next t →
    ∀ n, (levelsOf t.w)[n]? = some true → (levelsOf t.w)[n + 1]? ≠ some true

/-- R86, R87: the step that accepts a valid command leaves a state of its waveform, with slot 0 of frame 0 written. -/
def Obligations.AcceptedCommandStartsTheWaveform : Prop :=
  ∀ s : State, s.fsm = .idle → s.now ≤ s.input.now → s.input.rst = false → s.input.start = true →
    unitValid (s.input.cmd.extractLsb' 32 8) = true → 1 ≤ (s.input.cmd.extractLsb' 48 16).toNat →
    ∃ t, step s = .next t ∧ t.fsm = .slot ∧ SeqInv t ∧ WaveInv s.w t ∧ OnIdeal s.input.now t ∧ t.slotsWritten = 1 ∧
      t.movesLeft = 311 * t.repsR.toNat ∧ t.repsR = s.input.cmd.extractLsb' 48 16 ∧
      t.pattern = framePattern (s.input.cmd.extractLsb' 0 26) (s.input.cmd.extractLsb' 32 8) (s.input.cmd.getLsbD 40)

/-- R30 (third item), R83, R99, R104: every step of a transmission keeps its waveform, whatever the times of the steps and
whatever `start` and `cmd` do; when `busy` falls, the log has grown since the acceptance by exactly `reps_r` whole frames
of the latched command. -/
def Obligations.StepKeepsTheWaveform : Prop :=
  ∀ (before : List WriteEvent) (s t : State), SeqInv s → WaveInv before s → s.busy = true → s.input.rst = false →
    step s = .next t →
    (t.busy = true → WaveInv before t) ∧
    (t.busy = false → ∃ done, t.w = before ++ done ∧ levelsOf done = s.frames s.repsR.toNat)

/-- R23, R109, R111: apart from reset, no step clears `fault_reentry`, and exactly a `start` in SLOT or GAP, that is, while a
transmission is in progress, sets it. That a `start` with `fsm` = 3, where `busy` is 1 too, does not set it is the model's
reading (log 6). -/
def Obligations.FaultIsSticky : Prop :=
  ∀ s t : State, step s = .next t → s.input.rst = false →
    (t.faultReentry = true ↔
      s.faultReentry = true ∨ (s.input.start = true ∧ (s.fsm = .slot ∨ s.fsm = .gap)))

/-- R17: from acceptance to completion nothing writes the latched registers; apart from reset only a step that takes a
command in IDLE does. That they also keep their values in the step that ends a transmission and in IDLE, where U5 leaves
them open, is the model's choice (log 22). -/
def Obligations.LatchedCommandIsImmutable : Prop :=
  ∀ s t : State, step s = .next t → s.input.rst = false → ¬ (s.fsm = .idle ∧ s.input.start = true) →
    t.idR = s.idR ∧ t.unitR = s.unitR ∧ t.actR = s.actR ∧ t.repsR = s.repsR

/-- R26, R86, R90: apart from reset, `busy` rises only in the step that accepts a valid command and falls only in the step
that ends the gap of the last repetition. -/
def Obligations.BusyRisesAndFalls : Prop :=
  ∀ s t : State, step s = .next t → s.input.rst = false →
    (s.busy = false ∧ t.busy = true ↔ s.fsm = .idle ∧ s.input.start = true ∧
      unitValid (s.input.cmd.extractLsb' 32 8) = true ∧ 1 ≤ (s.input.cmd.extractLsb' 48 16).toNat) ∧
    (s.busy = true ∧ t.busy = false ↔ s.fsm = .gap ∧ s.gapEnd ≤ s.input.now ∧ s.repCnt + 1 = s.repsR)

/-! ### Counts, timing and progress -/

/-- R104: each step of a transmission writes as many events as the count of written slots grows by; when `busy` falls, 310
slots have been written for each repetition. -/
def Obligations.SlotCount : Prop :=
  ∀ s t : State, SeqInv s → s.busy = true → s.input.rst = false → step s = .next t →
    (t.busy = true → t.w.length + s.slotsWritten = s.w.length + t.slotsWritten) ∧
    (t.busy = false → t.w = s.w ∧ s.slotsWritten = 310 * s.repsR.toNat)

/-- R103, R135: no deadline of a transmission lies before the ideal schedule from its acceptance, and `busy` does not fall
before 112500 µs for each repetition have passed, whatever the times of the steps. -/
def Obligations.NeverAheadOfTheIdeal : Prop :=
  ∀ (accepted : Nat) (s t : State), SeqInv s → NotBeforeIdeal accepted s → s.busy = true → s.input.rst = false →
    step s = .next t →
    (t.busy = true → NotBeforeIdeal accepted t) ∧
    (t.busy = false → accepted + 112500 * s.repsR.toNat ≤ t.now)

/-- R102, R103: as long as each step comes exactly at its deadline, every deadline is that of the ideal schedule, and
`busy` falls exactly 112500 µs for each repetition after the acceptance. -/
def Obligations.IdealScheduleIsExact : Prop :=
  ∀ (accepted : Nat) (s t : State), SeqInv s → OnIdeal accepted s → s.deadline = some s.input.now → s.input.rst = false →
    step s = .next t →
    (t.busy = true → OnIdeal accepted t) ∧
    (t.busy = false → t.now = accepted + 112500 * s.repsR.toNat)

/-- R89, R90, R91: a step at or after the deadline uses up one of the moves a transmission has left, a step before it none,
and none are left exactly when the block is IDLE. -/
def Obligations.EachDueStepUsesOneMove : Prop :=
  ∀ s : State, SeqInv s → s.now ≤ s.input.now → s.input.rst = false →
    (s.movesLeft = 0 ↔ s.fsm = .idle) ∧
    ∀ d, s.deadline = some d → ∃ t, step s = .next t ∧
      (d ≤ s.input.now → t.movesLeft + 1 = s.movesLeft) ∧ (s.input.now < d → t.movesLeft = s.movesLeft)

/-- R56, R94, R104, with the fairness of R95 made concrete: a host that presents a valid command in IDLE and then polls 311
times for each repetition, no two polls closer than the gap's 35000 µs, sees the block IDLE again, LOW and with no command
lost in the meantime, and the pin has been written with exactly `REPS` frames of the command. -/
def Obligations.TransmissionRunsToCompletion : Prop :=
  ∀ (s : State) (cmd : Cmd64) (n : Nat) (ts : List Nat),
    s.fsm = .idle → s.now ≤ n → s.env = ⟨false, true, cmd, n⟩ :: polls ts →
    unitValid (cmd.extractLsb' 32 8) = true → 1 ≤ (cmd.extractLsb' 48 16).toNat →
    ts.length = 311 * (cmd.extractLsb' 48 16).toNat → Spaced 35000 n ts →
    ∃ t done, Host.Core.run core (ts.length + 1) s = .next t ∧ t.fsm = .idle ∧ t.pin = false ∧
      t.faultReentry = s.faultReentry ∧ t.w = s.w ++ done ∧
      levelsOf done = (List.replicate (cmd.extractLsb' 48 16).toNat
        (framePattern (cmd.extractLsb' 0 26) (cmd.extractLsb' 32 8) (cmd.getLsbD 40))).flatten

/-- R97, R98, R102: on the ideal schedule the pin's level at any time within slot n's 250 µs is the level of slot n. -/
def Obligations.IdealWaveformHoldsEachSlot : Prop :=
  ∀ (origin : Nat) (ls : List Level) (n d : Nat), n < ls.length → d < 250 →
    some (levelAt (idealEvents origin ls) (origin + 250 * n + d)) = ls[n]?

/-- R130: on a finite clock of at least one bit, the wrap-safe compare of the clock values agrees with the plain compare of
the unbounded times as long as the two lie less than half the clock's range apart. -/
def Obligations.FiniteClockCompareAgrees : Prop :=
  ∀ (width now deadline : Nat), 1 ≤ width → now < deadline + 2 ^ (width - 1) → deadline < now + 2 ^ (width - 1) →
    reachedFinite width (BitVec.ofNat width now) (BitVec.ofNat width deadline) = reached now deadline
end

