-- ==== Sys2Proof/Laws/Encode.lean ====
section
/-! SUPPORT. The encoder, bit by bit. -/

namespace Sys2Proof

/-- Which field holds bit `j` of a command word (R52). -/
theorem encodeCmd_getLsbD (id : BitVec 32) (unit : BitVec 8) (act : Bool) (rsv : BitVec 7) (reps : BitVec 16) (j : Nat) :
    (encodeCmd id unit act rsv reps).getLsbD j =
      if j < 32 then id.getLsbD j else if j < 40 then unit.getLsbD (j - 32) else if j < 41 then act
      else if j < 48 then rsv.getLsbD (j - 41) else reps.getLsbD (j - 48) := by
  have h : (encodeCmd id unit act rsv reps).getLsbD j = (reps ++ rsv ++ BitVec.ofBool act ++ unit ++ id).getLsbD j := rfl
  rw [h, BitVec.getLsbD_append, BitVec.getLsbD_append, BitVec.getLsbD_append, BitVec.getLsbD_append]
  by_cases h1 : j < 32
  · simp only [h1, if_true]
  by_cases h2 : j < 40
  · simp only [h1, h2, if_false, if_true, show j - 32 < 8 by omega]
  by_cases h3 : j < 41
  · simp [h1, h2, h3, show ¬ j - 32 < 8 by omega, show j - 32 - 8 = 0 by omega]
  by_cases h4 : j < 48
  · simp only [h1, h2, h3, h4, if_false, if_true, show ¬ j - 32 < 8 by omega, show ¬ j - 32 - 8 < 1 by omega,
      show j - 32 - 8 - 1 = j - 41 by omega, show j - 41 < 7 by omega]
  · simp only [h1, h2, h3, h4, if_false, show ¬ j - 32 < 8 by omega, show ¬ j - 32 - 8 < 1 by omega,
      show ¬ j - 32 - 8 - 1 < 7 by omega, show j - 32 - 8 - 1 - 7 = j - 48 by omega]

end Sys2Proof
end

