-- ==== Sys2Proof/Laws/Rom.lean ====
section
/-! SUPPORT. The ROMs, read: what each word says of its symbol, and what the assembler of a frame answers. -/

namespace Sys2Proof.Machine

@[simp] theorem symbolOfCode_code (y : Symbol) : symbolOfCode y.code = y := by cases y <;> rfl

/-- The word of each symbol says its length. -/
@[simp] theorem symLen_sync : symLen (some .sync) = 11 := rfl
@[simp] theorem symLen_zero : symLen (some .zero) = 8 := rfl
@[simp] theorem symLen_one : symLen (some .one) = 8 := rfl
@[simp] theorem symLen_pause : symLen (some .pause) = 43 := rfl
@[simp] theorem symLen_none : symLen none = 0 := rfl

/-- The pattern of a symbol value has as many slots as its word says, and slot `j` of it is what the slot read gives. -/
@[simp] theorem patternOf_length (y : Option Symbol) : (patternOf y).length = symLen y := by
  cases y <;> simp [patternOf, symLen]

theorem patternOf_get (y : Symbol) (j : Nat) (h : j < symLen (some y)) :
    (patternOf (some y))[j]? = some (slotLevel y j) := by
  have h' : j < (romRead y).1.toNat := h
  simp [patternOf, h']

/-- No symbol is longer than PAT. -/
theorem symLen_le (y : Option Symbol) : symLen y ≤ 43 := by
  rcases y with _ | y
  · simp
  · cases y <;> simp

/-- The last slot of every symbol is LOW (R73 b). -/
theorem slotLevel_last (y : Symbol) : slotLevel y (symLen (some y) - 1) = false := by cases y <;> rfl

/-- Slot 0 of every symbol is HIGH (R73 a). -/
theorem slotLevel_first (y : Symbol) : slotLevel y 0 = true := by cases y <;> rfl

theorem dataSym_len (id : BitVec 26) (k : Nat) : symLen (some (dataSym id k)) = 8 := by
  unfold dataSym; split <;> rfl

theorem activationSym_len (act : Bool) : symLen (some (activationSym act)) = 8 := by cases act <;> rfl

/-- A valid unit is one of the four that the unit table holds. -/
theorem unitValid_cases {u : BitVec 8} : unitValid u = true → u = 1 ∨ u = 2 ∨ u = 3 ∨ u = 4 := by
  revert u; decide

theorem unitRead_len {u : BitVec 8} (h : unitValid u = true) :
    symLen (some (unitRead u).1) = 8 ∧ symLen (some (unitRead u).2) = 8 := by
  rcases unitValid_cases h with rfl | rfl | rfl | rfl <;> exact ⟨rfl, rfl⟩

/-- Inside a frame of a valid command, `FrameSym` answers a symbol of the alphabet, whose length only depends on the
place: Sync, thirty-two symbols of eight slots, Pause (R62, R74). -/
theorem frameSym_some {id : BitVec 26} {unit : BitVec 8} {act : Bool} {k : Nat} (hu : unitValid unit = true)
    (hk : k ≤ 33) : ∃ y, frameSym id unit act k = some y ∧
      symLen (some y) = if k = 0 then 11 else if k = 33 then 43 else 8 := by
  obtain ⟨h1, h2⟩ := unitRead_len hu
  unfold frameSym
  split
  · exact ⟨_, rfl, by simp [*]⟩
  split
  · exact ⟨_, rfl, by rw [dataSym_len, if_neg (by omega : ¬ k = 33)]⟩
  split
  · exact ⟨_, rfl, by subst k; rfl⟩
  split
  · exact ⟨_, rfl, by subst k; exact activationSym_len act⟩
  split
  · exact ⟨_, rfl, by rw [if_neg (by omega : ¬ k = 33)]; simp [*]⟩
  split
  · exact ⟨_, rfl, by subst k; exact h1⟩
  split
  · exact ⟨_, rfl, by subst k; exact h2⟩
  split
  · exact ⟨_, rfl, by subst k; rfl⟩
  · omega

/-- The frame starts with Sync, whatever the command (R80). -/
@[simp] theorem frameSym_zero (id : BitVec 26) (unit : BitVec 8) (act : Bool) : frameSym id unit act 0 = some .sync := rfl

/-- The frame ends with Pause, whatever the command (R80). -/
@[simp] theorem frameSym_last (id : BitVec 26) (unit : BitVec 8) (act : Bool) : frameSym id unit act 33 = some .pause := rfl

/-- What follows the slots of a symbol is the next symbol (R81). -/
theorem slotOffset_succ {id : BitVec 26} {unit : BitVec 8} {act : Bool} {k : Nat} (hu : unitValid unit = true)
    (hk : k < 33) : slotOffset (k + 1) = slotOffset k + symLen (frameSym id unit act k) := by
  obtain ⟨y, hy, hl⟩ := frameSym_some (id := id) (act := act) hu (show k ≤ 33 by omega)
  rw [hy, hl]
  unfold slotOffset
  by_cases h0 : k = 0
  · subst h0; rfl
  · rw [if_neg (by omega), if_neg h0, if_neg h0, if_neg (by omega)]
    omega

end Sys2Proof.Machine
end

