-- ==== Sys2Proof/Laws/State.lean ====
section
/-! SUPPORT. What each operation does to each field of State: one lemma per field per update, so that no later proof
unfolds a record update. -/

namespace Sys2Proof.Machine

/-! ### emit -/

@[simp] theorem State.emit_fsm (level : Level) (s : State) : (s.emit level).fsm = s.fsm := rfl
@[simp] theorem State.emit_idR (level : Level) (s : State) : (s.emit level).idR = s.idR := rfl
@[simp] theorem State.emit_unitR (level : Level) (s : State) : (s.emit level).unitR = s.unitR := rfl
@[simp] theorem State.emit_actR (level : Level) (s : State) : (s.emit level).actR = s.actR := rfl
@[simp] theorem State.emit_repsR (level : Level) (s : State) : (s.emit level).repsR = s.repsR := rfl
@[simp] theorem State.emit_repCnt (level : Level) (s : State) : (s.emit level).repCnt = s.repCnt := rfl
@[simp] theorem State.emit_symIdx (level : Level) (s : State) : (s.emit level).symIdx = s.symIdx := rfl
@[simp] theorem State.emit_slotIdx (level : Level) (s : State) : (s.emit level).slotIdx = s.slotIdx := rfl
@[simp] theorem State.emit_tNext (level : Level) (s : State) : (s.emit level).tNext = s.tNext := rfl
@[simp] theorem State.emit_gapEnd (level : Level) (s : State) : (s.emit level).gapEnd = s.gapEnd := rfl
@[simp] theorem State.emit_pin (level : Level) (s : State) : (s.emit level).pin = level := rfl
@[simp] theorem State.emit_faultReentry (level : Level) (s : State) : (s.emit level).faultReentry = s.faultReentry := rfl
@[simp] theorem State.emit_w (level : Level) (s : State) : (s.emit level).w = s.w ++ [⟨s.now, level⟩] := rfl
@[simp] theorem State.emit_now (level : Level) (s : State) : (s.emit level).now = s.now := rfl
@[simp] theorem State.emit_env (level : Level) (s : State) : (s.emit level).env = s.env := rfl
@[simp] theorem State.emit_draws (level : Level) (s : State) : (s.emit level).draws = s.draws := rfl

/-! ### raiseFault -/

@[simp] theorem State.raiseFault_fsm (s : State) : (s.raiseFault .reentry).fsm = s.fsm := rfl
@[simp] theorem State.raiseFault_idR (s : State) : (s.raiseFault .reentry).idR = s.idR := rfl
@[simp] theorem State.raiseFault_unitR (s : State) : (s.raiseFault .reentry).unitR = s.unitR := rfl
@[simp] theorem State.raiseFault_actR (s : State) : (s.raiseFault .reentry).actR = s.actR := rfl
@[simp] theorem State.raiseFault_repsR (s : State) : (s.raiseFault .reentry).repsR = s.repsR := rfl
@[simp] theorem State.raiseFault_repCnt (s : State) : (s.raiseFault .reentry).repCnt = s.repCnt := rfl
@[simp] theorem State.raiseFault_symIdx (s : State) : (s.raiseFault .reentry).symIdx = s.symIdx := rfl
@[simp] theorem State.raiseFault_slotIdx (s : State) : (s.raiseFault .reentry).slotIdx = s.slotIdx := rfl
@[simp] theorem State.raiseFault_tNext (s : State) : (s.raiseFault .reentry).tNext = s.tNext := rfl
@[simp] theorem State.raiseFault_gapEnd (s : State) : (s.raiseFault .reentry).gapEnd = s.gapEnd := rfl
@[simp] theorem State.raiseFault_pin (s : State) : (s.raiseFault .reentry).pin = s.pin := rfl
@[simp] theorem State.raiseFault_faultReentry (s : State) : (s.raiseFault .reentry).faultReentry = true := rfl
@[simp] theorem State.raiseFault_w (s : State) : (s.raiseFault .reentry).w = s.w := rfl
@[simp] theorem State.raiseFault_now (s : State) : (s.raiseFault .reentry).now = s.now := rfl
@[simp] theorem State.raiseFault_env (s : State) : (s.raiseFault .reentry).env = s.env := rfl
@[simp] theorem State.raiseFault_draws (s : State) : (s.raiseFault .reentry).draws = s.draws := rfl

/-! ### latch -/

@[simp] theorem State.latch_fsm (id : BitVec 32) (unit : BitVec 8) (act : Bool) (reps : BitVec 16) (s : State) : (s.latch id unit act reps).fsm = s.fsm := rfl
@[simp] theorem State.latch_idR (id : BitVec 32) (unit : BitVec 8) (act : Bool) (reps : BitVec 16) (s : State) : (s.latch id unit act reps).idR = latchedId id := rfl
@[simp] theorem State.latch_unitR (id : BitVec 32) (unit : BitVec 8) (act : Bool) (reps : BitVec 16) (s : State) : (s.latch id unit act reps).unitR = unit := rfl
@[simp] theorem State.latch_actR (id : BitVec 32) (unit : BitVec 8) (act : Bool) (reps : BitVec 16) (s : State) : (s.latch id unit act reps).actR = act := rfl
@[simp] theorem State.latch_repsR (id : BitVec 32) (unit : BitVec 8) (act : Bool) (reps : BitVec 16) (s : State) : (s.latch id unit act reps).repsR = reps := rfl
@[simp] theorem State.latch_repCnt (id : BitVec 32) (unit : BitVec 8) (act : Bool) (reps : BitVec 16) (s : State) : (s.latch id unit act reps).repCnt = s.repCnt := rfl
@[simp] theorem State.latch_symIdx (id : BitVec 32) (unit : BitVec 8) (act : Bool) (reps : BitVec 16) (s : State) : (s.latch id unit act reps).symIdx = s.symIdx := rfl
@[simp] theorem State.latch_slotIdx (id : BitVec 32) (unit : BitVec 8) (act : Bool) (reps : BitVec 16) (s : State) : (s.latch id unit act reps).slotIdx = s.slotIdx := rfl
@[simp] theorem State.latch_tNext (id : BitVec 32) (unit : BitVec 8) (act : Bool) (reps : BitVec 16) (s : State) : (s.latch id unit act reps).tNext = s.tNext := rfl
@[simp] theorem State.latch_gapEnd (id : BitVec 32) (unit : BitVec 8) (act : Bool) (reps : BitVec 16) (s : State) : (s.latch id unit act reps).gapEnd = s.gapEnd := rfl
@[simp] theorem State.latch_pin (id : BitVec 32) (unit : BitVec 8) (act : Bool) (reps : BitVec 16) (s : State) : (s.latch id unit act reps).pin = s.pin := rfl
@[simp] theorem State.latch_faultReentry (id : BitVec 32) (unit : BitVec 8) (act : Bool) (reps : BitVec 16) (s : State) : (s.latch id unit act reps).faultReentry = s.faultReentry := rfl
@[simp] theorem State.latch_w (id : BitVec 32) (unit : BitVec 8) (act : Bool) (reps : BitVec 16) (s : State) : (s.latch id unit act reps).w = s.w := rfl
@[simp] theorem State.latch_now (id : BitVec 32) (unit : BitVec 8) (act : Bool) (reps : BitVec 16) (s : State) : (s.latch id unit act reps).now = s.now := rfl
@[simp] theorem State.latch_env (id : BitVec 32) (unit : BitVec 8) (act : Bool) (reps : BitVec 16) (s : State) : (s.latch id unit act reps).env = s.env := rfl
@[simp] theorem State.latch_draws (id : BitVec 32) (unit : BitVec 8) (act : Bool) (reps : BitVec 16) (s : State) : (s.latch id unit act reps).draws = s.draws := rfl

/-! ### emitSymbol -/

@[simp] theorem State.emitSymbol_fsm (y : Symbol) (s : State) : (s.emitSymbol y).fsm = s.fsm := rfl
@[simp] theorem State.emitSymbol_idR (y : Symbol) (s : State) : (s.emitSymbol y).idR = s.idR := rfl
@[simp] theorem State.emitSymbol_unitR (y : Symbol) (s : State) : (s.emitSymbol y).unitR = s.unitR := rfl
@[simp] theorem State.emitSymbol_actR (y : Symbol) (s : State) : (s.emitSymbol y).actR = s.actR := rfl
@[simp] theorem State.emitSymbol_repsR (y : Symbol) (s : State) : (s.emitSymbol y).repsR = s.repsR := rfl
@[simp] theorem State.emitSymbol_repCnt (y : Symbol) (s : State) : (s.emitSymbol y).repCnt = s.repCnt := rfl
@[simp] theorem State.emitSymbol_symIdx (y : Symbol) (s : State) : (s.emitSymbol y).symIdx = s.symIdx := rfl
@[simp] theorem State.emitSymbol_slotIdx (y : Symbol) (s : State) : (s.emitSymbol y).slotIdx = s.slotIdx := rfl
@[simp] theorem State.emitSymbol_tNext (y : Symbol) (s : State) : (s.emitSymbol y).tNext = s.tNext + Config.slotUs := rfl
@[simp] theorem State.emitSymbol_gapEnd (y : Symbol) (s : State) : (s.emitSymbol y).gapEnd = s.gapEnd := rfl
@[simp] theorem State.emitSymbol_pin (y : Symbol) (s : State) : (s.emitSymbol y).pin = slotLevel y s.slotIdx.toNat := rfl
@[simp] theorem State.emitSymbol_faultReentry (y : Symbol) (s : State) : (s.emitSymbol y).faultReentry = s.faultReentry := rfl
@[simp] theorem State.emitSymbol_w (y : Symbol) (s : State) : (s.emitSymbol y).w = s.w ++ [⟨s.now, slotLevel y s.slotIdx.toNat⟩] := rfl
@[simp] theorem State.emitSymbol_now (y : Symbol) (s : State) : (s.emitSymbol y).now = s.now := rfl
@[simp] theorem State.emitSymbol_env (y : Symbol) (s : State) : (s.emitSymbol y).env = s.env := rfl
@[simp] theorem State.emitSymbol_draws (y : Symbol) (s : State) : (s.emitSymbol y).draws = s.draws := rfl

/-! ### beginFrame -/

@[simp] theorem State.beginFrame_fsm (s : State) : (s.beginFrame).fsm = .slot := rfl
@[simp] theorem State.beginFrame_idR (s : State) : (s.beginFrame).idR = s.idR := rfl
@[simp] theorem State.beginFrame_unitR (s : State) : (s.beginFrame).unitR = s.unitR := rfl
@[simp] theorem State.beginFrame_actR (s : State) : (s.beginFrame).actR = s.actR := rfl
@[simp] theorem State.beginFrame_repsR (s : State) : (s.beginFrame).repsR = s.repsR := rfl
@[simp] theorem State.beginFrame_repCnt (s : State) : (s.beginFrame).repCnt = s.repCnt := rfl
@[simp] theorem State.beginFrame_symIdx (s : State) : (s.beginFrame).symIdx = 0 := rfl
@[simp] theorem State.beginFrame_slotIdx (s : State) : (s.beginFrame).slotIdx = 0 := rfl
@[simp] theorem State.beginFrame_tNext (s : State) : (s.beginFrame).tNext = s.now := rfl
@[simp] theorem State.beginFrame_gapEnd (s : State) : (s.beginFrame).gapEnd = s.gapEnd := rfl
@[simp] theorem State.beginFrame_pin (s : State) : (s.beginFrame).pin = s.pin := rfl
@[simp] theorem State.beginFrame_faultReentry (s : State) : (s.beginFrame).faultReentry = s.faultReentry := rfl
@[simp] theorem State.beginFrame_w (s : State) : (s.beginFrame).w = s.w := rfl
@[simp] theorem State.beginFrame_now (s : State) : (s.beginFrame).now = s.now := rfl
@[simp] theorem State.beginFrame_env (s : State) : (s.beginFrame).env = s.env := rfl
@[simp] theorem State.beginFrame_draws (s : State) : (s.beginFrame).draws = s.draws := rfl

/-! ### resetBlock -/

@[simp] theorem State.resetBlock_fsm (s : State) : (s.resetBlock).fsm = .idle := rfl
@[simp] theorem State.resetBlock_idR (s : State) : (s.resetBlock).idR = (Config.afterReset s.draws).idR := rfl
@[simp] theorem State.resetBlock_unitR (s : State) : (s.resetBlock).unitR = (Config.afterReset s.draws).unitR := rfl
@[simp] theorem State.resetBlock_actR (s : State) : (s.resetBlock).actR = (Config.afterReset s.draws).actR := rfl
@[simp] theorem State.resetBlock_repsR (s : State) : (s.resetBlock).repsR = (Config.afterReset s.draws).repsR := rfl
@[simp] theorem State.resetBlock_repCnt (s : State) : (s.resetBlock).repCnt = (Config.afterReset s.draws).repCnt := rfl
@[simp] theorem State.resetBlock_symIdx (s : State) : (s.resetBlock).symIdx = (Config.afterReset s.draws).symIdx := rfl
@[simp] theorem State.resetBlock_slotIdx (s : State) : (s.resetBlock).slotIdx = (Config.afterReset s.draws).slotIdx := rfl
@[simp] theorem State.resetBlock_tNext (s : State) : (s.resetBlock).tNext = (Config.afterReset s.draws).tNext := rfl
@[simp] theorem State.resetBlock_gapEnd (s : State) : (s.resetBlock).gapEnd = (Config.afterReset s.draws).gapEnd := rfl
@[simp] theorem State.resetBlock_pin (s : State) : (s.resetBlock).pin = false := rfl
@[simp] theorem State.resetBlock_faultReentry (s : State) : (s.resetBlock).faultReentry = false := rfl
@[simp] theorem State.resetBlock_w (s : State) : (s.resetBlock).w = [] := rfl
@[simp] theorem State.resetBlock_now (s : State) : (s.resetBlock).now = s.now := rfl
@[simp] theorem State.resetBlock_env (s : State) : (s.resetBlock).env = s.env := rfl
@[simp] theorem State.resetBlock_draws (s : State) : (s.resetBlock).draws = s.draws + 1 := rfl

/-! ### moveTo -/

@[simp] theorem State.moveTo_fsm (k j : BitVec 6) (s : State) : (s.moveTo k j).fsm = s.fsm := rfl
@[simp] theorem State.moveTo_idR (k j : BitVec 6) (s : State) : (s.moveTo k j).idR = s.idR := rfl
@[simp] theorem State.moveTo_unitR (k j : BitVec 6) (s : State) : (s.moveTo k j).unitR = s.unitR := rfl
@[simp] theorem State.moveTo_actR (k j : BitVec 6) (s : State) : (s.moveTo k j).actR = s.actR := rfl
@[simp] theorem State.moveTo_repsR (k j : BitVec 6) (s : State) : (s.moveTo k j).repsR = s.repsR := rfl
@[simp] theorem State.moveTo_repCnt (k j : BitVec 6) (s : State) : (s.moveTo k j).repCnt = s.repCnt := rfl
@[simp] theorem State.moveTo_symIdx (k j : BitVec 6) (s : State) : (s.moveTo k j).symIdx = k := rfl
@[simp] theorem State.moveTo_slotIdx (k j : BitVec 6) (s : State) : (s.moveTo k j).slotIdx = j := rfl
@[simp] theorem State.moveTo_tNext (k j : BitVec 6) (s : State) : (s.moveTo k j).tNext = s.tNext := rfl
@[simp] theorem State.moveTo_gapEnd (k j : BitVec 6) (s : State) : (s.moveTo k j).gapEnd = s.gapEnd := rfl
@[simp] theorem State.moveTo_pin (k j : BitVec 6) (s : State) : (s.moveTo k j).pin = s.pin := rfl
@[simp] theorem State.moveTo_faultReentry (k j : BitVec 6) (s : State) : (s.moveTo k j).faultReentry = s.faultReentry := rfl
@[simp] theorem State.moveTo_w (k j : BitVec 6) (s : State) : (s.moveTo k j).w = s.w := rfl
@[simp] theorem State.moveTo_now (k j : BitVec 6) (s : State) : (s.moveTo k j).now = s.now := rfl
@[simp] theorem State.moveTo_env (k j : BitVec 6) (s : State) : (s.moveTo k j).env = s.env := rfl
@[simp] theorem State.moveTo_draws (k j : BitVec 6) (s : State) : (s.moveTo k j).draws = s.draws := rfl

/-! ### enterGap -/

@[simp] theorem State.enterGap_fsm (s : State) : (s.enterGap).fsm = .gap := rfl
@[simp] theorem State.enterGap_idR (s : State) : (s.enterGap).idR = s.idR := rfl
@[simp] theorem State.enterGap_unitR (s : State) : (s.enterGap).unitR = s.unitR := rfl
@[simp] theorem State.enterGap_actR (s : State) : (s.enterGap).actR = s.actR := rfl
@[simp] theorem State.enterGap_repsR (s : State) : (s.enterGap).repsR = s.repsR := rfl
@[simp] theorem State.enterGap_repCnt (s : State) : (s.enterGap).repCnt = s.repCnt := rfl
@[simp] theorem State.enterGap_symIdx (s : State) : (s.enterGap).symIdx = s.symIdx := rfl
@[simp] theorem State.enterGap_slotIdx (s : State) : (s.enterGap).slotIdx = s.slotIdx := rfl
@[simp] theorem State.enterGap_tNext (s : State) : (s.enterGap).tNext = s.tNext := rfl
@[simp] theorem State.enterGap_gapEnd (s : State) : (s.enterGap).gapEnd = s.now + Config.gapUs := rfl
@[simp] theorem State.enterGap_pin (s : State) : (s.enterGap).pin = s.pin := rfl
@[simp] theorem State.enterGap_faultReentry (s : State) : (s.enterGap).faultReentry = s.faultReentry := rfl
@[simp] theorem State.enterGap_w (s : State) : (s.enterGap).w = s.w := rfl
@[simp] theorem State.enterGap_now (s : State) : (s.enterGap).now = s.now := rfl
@[simp] theorem State.enterGap_env (s : State) : (s.enterGap).env = s.env := rfl
@[simp] theorem State.enterGap_draws (s : State) : (s.enterGap).draws = s.draws := rfl

/-! ### countRepetition -/

@[simp] theorem State.countRepetition_fsm (s : State) : (s.countRepetition).fsm = s.fsm := rfl
@[simp] theorem State.countRepetition_idR (s : State) : (s.countRepetition).idR = s.idR := rfl
@[simp] theorem State.countRepetition_unitR (s : State) : (s.countRepetition).unitR = s.unitR := rfl
@[simp] theorem State.countRepetition_actR (s : State) : (s.countRepetition).actR = s.actR := rfl
@[simp] theorem State.countRepetition_repsR (s : State) : (s.countRepetition).repsR = s.repsR := rfl
@[simp] theorem State.countRepetition_repCnt (s : State) : (s.countRepetition).repCnt = s.repCnt + 1 := rfl
@[simp] theorem State.countRepetition_symIdx (s : State) : (s.countRepetition).symIdx = s.symIdx := rfl
@[simp] theorem State.countRepetition_slotIdx (s : State) : (s.countRepetition).slotIdx = s.slotIdx := rfl
@[simp] theorem State.countRepetition_tNext (s : State) : (s.countRepetition).tNext = s.tNext := rfl
@[simp] theorem State.countRepetition_gapEnd (s : State) : (s.countRepetition).gapEnd = s.gapEnd := rfl
@[simp] theorem State.countRepetition_pin (s : State) : (s.countRepetition).pin = s.pin := rfl
@[simp] theorem State.countRepetition_faultReentry (s : State) : (s.countRepetition).faultReentry = s.faultReentry := rfl
@[simp] theorem State.countRepetition_w (s : State) : (s.countRepetition).w = s.w := rfl
@[simp] theorem State.countRepetition_now (s : State) : (s.countRepetition).now = s.now := rfl
@[simp] theorem State.countRepetition_env (s : State) : (s.countRepetition).env = s.env := rfl
@[simp] theorem State.countRepetition_draws (s : State) : (s.countRepetition).draws = s.draws := rfl

/-! ### becomeIdle -/

@[simp] theorem State.becomeIdle_fsm (s : State) : (s.becomeIdle).fsm = .idle := rfl
@[simp] theorem State.becomeIdle_idR (s : State) : (s.becomeIdle).idR = s.idR := rfl
@[simp] theorem State.becomeIdle_unitR (s : State) : (s.becomeIdle).unitR = s.unitR := rfl
@[simp] theorem State.becomeIdle_actR (s : State) : (s.becomeIdle).actR = s.actR := rfl
@[simp] theorem State.becomeIdle_repsR (s : State) : (s.becomeIdle).repsR = s.repsR := rfl
@[simp] theorem State.becomeIdle_repCnt (s : State) : (s.becomeIdle).repCnt = s.repCnt := rfl
@[simp] theorem State.becomeIdle_symIdx (s : State) : (s.becomeIdle).symIdx = s.symIdx := rfl
@[simp] theorem State.becomeIdle_slotIdx (s : State) : (s.becomeIdle).slotIdx = s.slotIdx := rfl
@[simp] theorem State.becomeIdle_tNext (s : State) : (s.becomeIdle).tNext = s.tNext := rfl
@[simp] theorem State.becomeIdle_gapEnd (s : State) : (s.becomeIdle).gapEnd = s.gapEnd := rfl
@[simp] theorem State.becomeIdle_pin (s : State) : (s.becomeIdle).pin = s.pin := rfl
@[simp] theorem State.becomeIdle_faultReentry (s : State) : (s.becomeIdle).faultReentry = s.faultReentry := rfl
@[simp] theorem State.becomeIdle_w (s : State) : (s.becomeIdle).w = s.w := rfl
@[simp] theorem State.becomeIdle_now (s : State) : (s.becomeIdle).now = s.now := rfl
@[simp] theorem State.becomeIdle_env (s : State) : (s.becomeIdle).env = s.env := rfl
@[simp] theorem State.becomeIdle_draws (s : State) : (s.becomeIdle).draws = s.draws := rfl

/-! ### checkReentry -/

@[simp] theorem checkReentry_fsm (start : Bool) (s : State) : (checkReentry start s).fsm = s.fsm := by
  cases start <;> rfl
@[simp] theorem checkReentry_idR (start : Bool) (s : State) : (checkReentry start s).idR = s.idR := by
  cases start <;> rfl
@[simp] theorem checkReentry_unitR (start : Bool) (s : State) : (checkReentry start s).unitR = s.unitR := by
  cases start <;> rfl
@[simp] theorem checkReentry_actR (start : Bool) (s : State) : (checkReentry start s).actR = s.actR := by
  cases start <;> rfl
@[simp] theorem checkReentry_repsR (start : Bool) (s : State) : (checkReentry start s).repsR = s.repsR := by
  cases start <;> rfl
@[simp] theorem checkReentry_repCnt (start : Bool) (s : State) : (checkReentry start s).repCnt = s.repCnt := by
  cases start <;> rfl
@[simp] theorem checkReentry_symIdx (start : Bool) (s : State) : (checkReentry start s).symIdx = s.symIdx := by
  cases start <;> rfl
@[simp] theorem checkReentry_slotIdx (start : Bool) (s : State) : (checkReentry start s).slotIdx = s.slotIdx := by
  cases start <;> rfl
@[simp] theorem checkReentry_tNext (start : Bool) (s : State) : (checkReentry start s).tNext = s.tNext := by
  cases start <;> rfl
@[simp] theorem checkReentry_gapEnd (start : Bool) (s : State) : (checkReentry start s).gapEnd = s.gapEnd := by
  cases start <;> rfl
@[simp] theorem checkReentry_pin (start : Bool) (s : State) : (checkReentry start s).pin = s.pin := by
  cases start <;> rfl
@[simp] theorem checkReentry_faultReentry (start : Bool) (s : State) : (checkReentry start s).faultReentry = (s.faultReentry || start) := by
  cases start <;> simp [checkReentry]
@[simp] theorem checkReentry_w (start : Bool) (s : State) : (checkReentry start s).w = s.w := by
  cases start <;> rfl
@[simp] theorem checkReentry_now (start : Bool) (s : State) : (checkReentry start s).now = s.now := by
  cases start <;> rfl
@[simp] theorem checkReentry_env (start : Bool) (s : State) : (checkReentry start s).env = s.env := by
  cases start <;> rfl
@[simp] theorem checkReentry_draws (start : Bool) (s : State) : (checkReentry start s).draws = s.draws := by
  cases start <;> rfl

/-! ### sampled -/

@[simp] theorem State.sampled_fsm (s : State) : s.sampled.fsm = s.fsm := by
  simp only [State.sampled]
  split <;> rfl
@[simp] theorem State.sampled_idR (s : State) : s.sampled.idR = s.idR := by
  simp only [State.sampled]
  split <;> rfl
@[simp] theorem State.sampled_unitR (s : State) : s.sampled.unitR = s.unitR := by
  simp only [State.sampled]
  split <;> rfl
@[simp] theorem State.sampled_actR (s : State) : s.sampled.actR = s.actR := by
  simp only [State.sampled]
  split <;> rfl
@[simp] theorem State.sampled_repsR (s : State) : s.sampled.repsR = s.repsR := by
  simp only [State.sampled]
  split <;> rfl
@[simp] theorem State.sampled_repCnt (s : State) : s.sampled.repCnt = s.repCnt := by
  simp only [State.sampled]
  split <;> rfl
@[simp] theorem State.sampled_symIdx (s : State) : s.sampled.symIdx = s.symIdx := by
  simp only [State.sampled]
  split <;> rfl
@[simp] theorem State.sampled_slotIdx (s : State) : s.sampled.slotIdx = s.slotIdx := by
  simp only [State.sampled]
  split <;> rfl
@[simp] theorem State.sampled_tNext (s : State) : s.sampled.tNext = s.tNext := by
  simp only [State.sampled]
  split <;> rfl
@[simp] theorem State.sampled_gapEnd (s : State) : s.sampled.gapEnd = s.gapEnd := by
  simp only [State.sampled]
  split <;> rfl
@[simp] theorem State.sampled_pin (s : State) : s.sampled.pin = s.pin := by
  simp only [State.sampled]
  split <;> rfl
@[simp] theorem State.sampled_faultReentry (s : State) : s.sampled.faultReentry = s.faultReentry := by
  simp only [State.sampled]
  split <;> rfl
@[simp] theorem State.sampled_w (s : State) : s.sampled.w = s.w := by
  simp only [State.sampled]
  split <;> rfl
@[simp] theorem State.sampled_now (s : State) : s.sampled.now = s.input.now := by
  simp only [State.sampled, State.input]
  split <;> rfl
@[simp] theorem State.sampled_env (s : State) : s.sampled.env = s.env.tail := by
  simp only [State.sampled]
  split <;> simp_all

/-! ### Functions of the registers that the model's own fields do not reach -/

@[simp] theorem State.sampled_busy (s : State) : s.sampled.busy = s.busy := by simp [State.busy]
@[simp] theorem State.sampled_frameSymAt (s : State) (k : Nat) : s.sampled.frameSymAt k = s.frameSymAt k := by
  simp [State.frameSymAt]
@[simp] theorem State.sampled_currentSym (s : State) : s.sampled.currentSym = s.currentSym := by simp [State.currentSym]
@[simp] theorem State.sampled_pattern (s : State) : s.sampled.pattern = s.pattern := by simp [State.pattern]
@[simp] theorem State.sampled_frameSlot (s : State) : s.sampled.frameSlot = s.frameSlot := by simp [State.frameSlot]
@[simp] theorem checkReentry_busy (b : Bool) (s : State) : (checkReentry b s).busy = s.busy := by simp [State.busy]
@[simp] theorem checkReentry_frameSymAt (b : Bool) (s : State) (k : Nat) :
    (checkReentry b s).frameSymAt k = s.frameSymAt k := by
  simp [State.frameSymAt]
@[simp] theorem checkReentry_currentSym (b : Bool) (s : State) : (checkReentry b s).currentSym = s.currentSym := by
  simp [State.currentSym]
@[simp] theorem checkReentry_pattern (b : Bool) (s : State) : (checkReentry b s).pattern = s.pattern := by
  simp [State.pattern]
@[simp] theorem checkReentry_frameSlot (b : Bool) (s : State) : (checkReentry b s).frameSlot = s.frameSlot := by
  simp [State.frameSlot]
@[simp] theorem State.moveTo_currentSym (k j : BitVec 6) (s : State) :
    (s.moveTo k j).currentSym = s.frameSymAt k.toNat := rfl
@[simp] theorem State.moveTo_frameSymAt (k j : BitVec 6) (s : State) (n : Nat) :
    (s.moveTo k j).frameSymAt n = s.frameSymAt n := rfl
@[simp] theorem State.moveTo_pattern (k j : BitVec 6) (s : State) : (s.moveTo k j).pattern = s.pattern := rfl
@[simp] theorem State.moveTo_frameSlot (k j : BitVec 6) (s : State) :
    (s.moveTo k j).frameSlot = slotOffset k.toNat + j.toNat := rfl
@[simp] theorem State.moveTo_busy (k j : BitVec 6) (s : State) : (s.moveTo k j).busy = s.busy := rfl
@[simp] theorem State.enterGap_pattern (s : State) : s.enterGap.pattern = s.pattern := rfl
@[simp] theorem State.enterGap_busy (s : State) : s.enterGap.busy = true := rfl
@[simp] theorem State.countRepetition_pattern (s : State) : s.countRepetition.pattern = s.pattern := rfl
@[simp] theorem State.countRepetition_busy (s : State) : s.countRepetition.busy = s.busy := rfl
@[simp] theorem State.becomeIdle_pattern (s : State) : s.becomeIdle.pattern = s.pattern := rfl
@[simp] theorem State.becomeIdle_busy (s : State) : s.becomeIdle.busy = false := rfl
@[simp] theorem State.emitSymbol_currentSym (y : Symbol) (s : State) : (s.emitSymbol y).currentSym = s.currentSym := rfl
@[simp] theorem State.emitSymbol_pattern (y : Symbol) (s : State) : (s.emitSymbol y).pattern = s.pattern := rfl
@[simp] theorem State.emitSymbol_frameSlot (y : Symbol) (s : State) : (s.emitSymbol y).frameSlot = s.frameSlot := rfl
@[simp] theorem State.emitSymbol_busy (y : Symbol) (s : State) : (s.emitSymbol y).busy = s.busy := rfl

end Sys2Proof.Machine
end

