-- ==== Sys2Proof/Laws/Ops.lean ====
section
/-! SUPPORT. What each shared operation can do, said once. -/

namespace Sys2Proof.Machine

/-- The symbol that a slot emission drives is the one at the tuple; outside the alphabet nothing is driven (R72, R88). -/
theorem State.emitSlot_cases (s : State) :
    (∃ y, s.currentSym = some y ∧ s.emitSlot = s.emitSymbol y) ∨ (s.currentSym = none ∧ s.emitSlot = s) := by
  unfold State.emitSlot
  split
  · exact .inl ⟨_, ‹_›, rfl⟩
  · exact .inr ⟨‹_›, rfl⟩

theorem State.emitSlot_of_sym {s : State} {y : Symbol} (h : s.currentSym = some y) : s.emitSlot = s.emitSymbol y := by
  simp [State.emitSlot, h]

/-- `StartFrame` emits slot 0 of Sync: HIGH, at the frame's origin `now` (R87). -/
theorem State.startFrame_eq (s : State) :
    s.startFrame = { s with
      tNext := s.now + Config.slotUs, symIdx := 0, slotIdx := 0, fsm := .slot
      pin := true, w := s.w ++ [⟨s.now, true⟩] } := by
  have h : s.beginFrame.currentSym = some .sync := rfl
  rw [State.startFrame, State.emitSlot_of_sym h]
  simp [State.emitSymbol, State.emit, State.beginFrame, slotLevel_first]

/-! ### startFrame, field by field -/

@[simp] theorem State.startFrame_fsm (s : State) : s.startFrame.fsm = .slot := by rw [State.startFrame_eq]
@[simp] theorem State.startFrame_idR (s : State) : s.startFrame.idR = s.idR := by rw [State.startFrame_eq]
@[simp] theorem State.startFrame_unitR (s : State) : s.startFrame.unitR = s.unitR := by rw [State.startFrame_eq]
@[simp] theorem State.startFrame_actR (s : State) : s.startFrame.actR = s.actR := by rw [State.startFrame_eq]
@[simp] theorem State.startFrame_repsR (s : State) : s.startFrame.repsR = s.repsR := by rw [State.startFrame_eq]
@[simp] theorem State.startFrame_repCnt (s : State) : s.startFrame.repCnt = s.repCnt := by rw [State.startFrame_eq]
@[simp] theorem State.startFrame_symIdx (s : State) : s.startFrame.symIdx = 0 := by rw [State.startFrame_eq]
@[simp] theorem State.startFrame_slotIdx (s : State) : s.startFrame.slotIdx = 0 := by rw [State.startFrame_eq]
@[simp] theorem State.startFrame_tNext (s : State) : s.startFrame.tNext = s.now + Config.slotUs := by rw [State.startFrame_eq]
@[simp] theorem State.startFrame_gapEnd (s : State) : s.startFrame.gapEnd = s.gapEnd := by rw [State.startFrame_eq]
@[simp] theorem State.startFrame_pin (s : State) : s.startFrame.pin = true := by rw [State.startFrame_eq]
@[simp] theorem State.startFrame_faultReentry (s : State) : s.startFrame.faultReentry = s.faultReentry := by rw [State.startFrame_eq]
@[simp] theorem State.startFrame_w (s : State) : s.startFrame.w = s.w ++ [⟨s.now, true⟩] := by rw [State.startFrame_eq]
@[simp] theorem State.startFrame_now (s : State) : s.startFrame.now = s.now := by rw [State.startFrame_eq]
@[simp] theorem State.startFrame_env (s : State) : s.startFrame.env = s.env := by rw [State.startFrame_eq]
@[simp] theorem State.startFrame_draws (s : State) : s.startFrame.draws = s.draws := by rw [State.startFrame_eq]
@[simp] theorem State.startFrame_pattern (s : State) : s.startFrame.pattern = s.pattern := by simp [State.pattern]
@[simp] theorem State.startFrame_busy (s : State) : s.startFrame.busy = true := by simp [State.busy]
@[simp] theorem State.startFrame_frameSlot (s : State) : s.startFrame.frameSlot = 0 := by
  simp [State.frameSlot, slotOffset]
@[simp] theorem State.startFrame_currentSym (s : State) : s.startFrame.currentSym = some .sync := by
  simp [State.currentSym, State.frameSymAt]

/-! ### emitSlot: what it leaves unchanged, and what it writes together -/

@[simp] theorem State.emitSlot_fsm (s : State) : s.emitSlot.fsm = s.fsm := by
  unfold State.emitSlot; split <;> rfl
@[simp] theorem State.emitSlot_idR (s : State) : s.emitSlot.idR = s.idR := by
  unfold State.emitSlot; split <;> rfl
@[simp] theorem State.emitSlot_unitR (s : State) : s.emitSlot.unitR = s.unitR := by
  unfold State.emitSlot; split <;> rfl
@[simp] theorem State.emitSlot_actR (s : State) : s.emitSlot.actR = s.actR := by
  unfold State.emitSlot; split <;> rfl
@[simp] theorem State.emitSlot_repsR (s : State) : s.emitSlot.repsR = s.repsR := by
  unfold State.emitSlot; split <;> rfl
@[simp] theorem State.emitSlot_repCnt (s : State) : s.emitSlot.repCnt = s.repCnt := by
  unfold State.emitSlot; split <;> rfl
@[simp] theorem State.emitSlot_symIdx (s : State) : s.emitSlot.symIdx = s.symIdx := by
  unfold State.emitSlot; split <;> rfl
@[simp] theorem State.emitSlot_slotIdx (s : State) : s.emitSlot.slotIdx = s.slotIdx := by
  unfold State.emitSlot; split <;> rfl
@[simp] theorem State.emitSlot_gapEnd (s : State) : s.emitSlot.gapEnd = s.gapEnd := by
  unfold State.emitSlot; split <;> rfl
@[simp] theorem State.emitSlot_faultReentry (s : State) : s.emitSlot.faultReentry = s.faultReentry := by
  unfold State.emitSlot; split <;> rfl
@[simp] theorem State.emitSlot_now (s : State) : s.emitSlot.now = s.now := by
  unfold State.emitSlot; split <;> rfl
@[simp] theorem State.emitSlot_env (s : State) : s.emitSlot.env = s.env := by
  unfold State.emitSlot; split <;> rfl
@[simp] theorem State.emitSlot_draws (s : State) : s.emitSlot.draws = s.draws := by
  unfold State.emitSlot; split <;> rfl

/-- A slot emission keeps the deadline in step with the log: 250 µs for each event it writes (R88, R101). -/
theorem State.emitSlot_deadline (s : State) :
    s.emitSlot.tNext + Config.slotUs * s.w.length = s.tNext + Config.slotUs * s.emitSlot.w.length := by
  obtain ⟨y, -, h⟩ | ⟨-, h⟩ := s.emitSlot_cases
  · rw [h]; simp; ring
  · rw [h]

/-- A slot emission writes the pin and the log together, or neither. -/
theorem State.emitSlot_pin_w (s : State) :
    (s.emitSlot.pin = s.pin ∧ s.emitSlot.w = s.w) ∨ s.emitSlot.w = s.w ++ [⟨s.now, s.emitSlot.pin⟩] := by
  obtain ⟨y, -, h⟩ | ⟨-, h⟩ := s.emitSlot_cases <;> rw [h] <;> simp

/-- The state machine's fetch of the symbol at the tuple: its code, or nothing outside the alphabet. -/
theorem fetchSlot_cases (s : State) :
    (∃ y, s.currentSym = some y ∧ fetchSlot s = .run (.sym2 y.code) s) ∨
      (s.currentSym = none ∧ fetchSlot s = .settled s) := by
  unfold fetchSlot
  split
  · exact .inl ⟨_, ‹_›, rfl⟩
  · exact .inr ⟨‹_›, rfl⟩

/-- The end of a slot's wait has three ways on (R89). -/
theorem slotDone_cases (s : State) :
    (s.slotIdx.toNat + 1 < symLen s.currentSym ∧ slotDone s = fetchSlot (s.moveTo s.symIdx (s.slotIdx + 1))) ∨
    (symLen s.currentSym ≤ s.slotIdx.toNat + 1 ∧ s.symIdx.toNat + 1 < 34 ∧
      slotDone s = fetchSlot (s.moveTo (s.symIdx + 1) 0)) ∨
    (symLen s.currentSym ≤ s.slotIdx.toNat + 1 ∧ 34 ≤ s.symIdx.toNat + 1 ∧
      slotDone s = .settled s.enterGap) := by
  by_cases h1 : s.slotIdx.toNat + 1 < symLen s.currentSym
  · exact .inl ⟨h1, by simp [slotDone, h1]⟩
  by_cases h2 : s.symIdx.toNat + 1 < 34
  · exact .inr (.inl ⟨by omega, h2, by simp [slotDone, h1, Config.frameSyms, h2]⟩)
  · exact .inr (.inr ⟨by omega, by omega, by simp [slotDone, h1, Config.frameSyms, h2]⟩)

/-- The end of a gap has two ways on (R90). -/
theorem gapDone_cases (s : State) :
    (s.repCnt + 1 = s.repsR ∧ gapDone s = .settled s.countRepetition.becomeIdle) ∨
    (s.repCnt + 1 ≠ s.repsR ∧ gapDone s = fetchSlot s.countRepetition.beginFrame) := by
  by_cases h : s.repCnt + 1 = s.repsR
  · exact .inl ⟨h, by unfold gapDone; exact if_pos h⟩
  · exact .inr ⟨h, by unfold gapDone; exact if_neg h⟩

end Sys2Proof.Machine
end

