-- ==== Sys2Proof/Laws/PerInstr.lean ====
section
/-! SUPPORT. Statements about every instruction as syntax, one lemma per constructor. -/

namespace Sys2Proof

/-- The eight bytes of a command word, put together again, are the word (R39). -/
theorem cmdBytes_append (w : Cmd64) :
    cmdByte w 7 ++ cmdByte w 6 ++ cmdByte w 5 ++ cmdByte w 4 ++ cmdByte w 3 ++ cmdByte w 2 ++ cmdByte w 1 ++
      cmdByte w 0 = w := by
  unfold cmdByte
  iterate 7 rw [BitVec.extractLsb'_append_extractLsb'_eq_extractLsb' (by rfl)]
  exact BitVec.extractLsb'_eq_self

/-- The bytes of a code present that code. -/
theorem Code.ofBytes_toBytes (c : Code) : Code.ofBytes c.toBytes = .ok c := by
  cases c with
  | cmd64 w => simp [Code.toBytes, Code.ofBytes, cmdBytes_append]
  | sym2 c => revert c; decide

/-- The family of statements "the bytes of an instruction's encoding present that encoding" (R39, R50). -/
def Laws.BytesPresentCode.Statement (i : Instr) : Prop := Code.ofBytes (encode i).toBytes = .ok (encode i)

theorem Laws.BytesPresentCode.transmit (id unit act rsv reps) :
    Laws.BytesPresentCode.Statement (.transmit id unit act rsv reps) := Code.ofBytes_toBytes _
theorem Laws.BytesPresentCode.sync : Laws.BytesPresentCode.Statement .sync := Code.ofBytes_toBytes _
theorem Laws.BytesPresentCode.zero : Laws.BytesPresentCode.Statement .zero := Code.ofBytes_toBytes _
theorem Laws.BytesPresentCode.one : Laws.BytesPresentCode.Statement .one := Code.ofBytes_toBytes _
theorem Laws.BytesPresentCode.pause : Laws.BytesPresentCode.Statement .pause := Code.ofBytes_toBytes _

end Sys2Proof
end

