-- ==== Sys2Proof/Laws/Step.lean ====
section
/-! SUPPORT. What the meanings and the step can do, said once: later proofs cite these and never unfold them. -/

namespace Sys2Proof.Machine

/-- The operation of a symbol emits one slot of it. -/
theorem exec_symbol (y : Symbol) (s : State) : exec y.instr s = .next (s.emitSymbol y) := by cases y <;> rfl

/-- The code of a symbol decodes to its operation. -/
theorem decode_symbol_code (y : Symbol) : decode (.sym2 y.code) = y.instr := by cases y <;> rfl

/-- What the step makes of a decision of the state machine. -/
def Sequenced.finish : Sequenced → Host.Outcome State Fault Refusal
  | .settled t => .next t
  | .run c t => exec (decode c) t

theorem step_admitted {s : State} (h : s.now ≤ s.input.now) : step s = (schedule s.input s.sampled).finish := by
  unfold step
  rw [if_neg (by omega)]
  cases schedule s.input s.sampled <;> rfl

theorem step_not_admitted {s : State} (h : s.input.now < s.now) : step s = .refused (.nowDecreased s.now s.input.now) := by
  simp [step, h]

/-- Fetching the symbol at the tuple and executing it is `EmitSlot` (R88). -/
theorem finish_fetchSlot (s : State) : (fetchSlot s).finish = .next s.emitSlot := by
  obtain ⟨y, hy, h⟩ | ⟨hy, h⟩ := fetchSlot_cases s
  · rw [h, Sequenced.finish, decode_symbol_code, exec_symbol, State.emitSlot_of_sym hy]
  · rw [h, Sequenced.finish, State.emitSlot, hy]

/-- TRANSMIT accepted in IDLE (R86). -/
theorem execTransmit_idle {s : State} (h : s.fsm = .idle) (id unit act rsv reps) :
    execTransmit id unit act rsv reps s =
      .next (if valid unit reps then { s.latch id unit act reps with repCnt := 0 }.startFrame
        else s.latch id unit act reps) := by
  unfold execTransmit
  rw [h]
  dsimp only
  split <;> rfl

/-- The command in a word that is accepted, and the state it leaves (R66, R86). -/
def State.accepted (cmd : Cmd64) (s : State) : State :=
  if valid (cmd.extractLsb' 32 8) (cmd.extractLsb' 48 16) then
    { s.latch (cmd.extractLsb' 0 32) (cmd.extractLsb' 32 8) (cmd.getLsbD 40) (cmd.extractLsb' 48 16) with
      repCnt := 0 }.startFrame
  else s.latch (cmd.extractLsb' 0 32) (cmd.extractLsb' 32 8) (cmd.getLsbD 40) (cmd.extractLsb' 48 16)

/-- Everything one step can do that answers a next state (R84, R86 to R92, R122). -/
theorem step_cases {s t : State} (h : step s = .next t) : s.now ≤ s.input.now ∧
    ((s.input.rst = true ∧ t = s.sampled.resetBlock) ∨
     (s.input.rst = false ∧ s.fsm = .idle ∧ s.input.start = false ∧ t = s.sampled) ∨
     (s.input.rst = false ∧ s.fsm = .idle ∧ s.input.start = true ∧ t = s.sampled.accepted s.input.cmd) ∨
     (s.input.rst = false ∧ s.fsm = .slot ∧ s.input.now < s.tNext ∧ t = checkReentry s.input.start s.sampled) ∨
     (s.input.rst = false ∧ s.fsm = .slot ∧ s.tNext ≤ s.input.now ∧ s.slotIdx.toNat + 1 < symLen s.currentSym ∧
       t = ((checkReentry s.input.start s.sampled).moveTo s.symIdx (s.slotIdx + 1)).emitSlot) ∨
     (s.input.rst = false ∧ s.fsm = .slot ∧ s.tNext ≤ s.input.now ∧ symLen s.currentSym ≤ s.slotIdx.toNat + 1 ∧
       s.symIdx.toNat + 1 < 34 ∧
       t = ((checkReentry s.input.start s.sampled).moveTo (s.symIdx + 1) 0).emitSlot) ∨
     (s.input.rst = false ∧ s.fsm = .slot ∧ s.tNext ≤ s.input.now ∧ symLen s.currentSym ≤ s.slotIdx.toNat + 1 ∧
       34 ≤ s.symIdx.toNat + 1 ∧
       t = (checkReentry s.input.start s.sampled).enterGap) ∨
     (s.input.rst = false ∧ s.fsm = .gap ∧ s.input.now < s.gapEnd ∧ t = checkReentry s.input.start s.sampled) ∨
     (s.input.rst = false ∧ s.fsm = .gap ∧ s.gapEnd ≤ s.input.now ∧ s.repCnt + 1 = s.repsR ∧
       t = (checkReentry s.input.start s.sampled).countRepetition.becomeIdle) ∨
     (s.input.rst = false ∧ s.fsm = .gap ∧ s.gapEnd ≤ s.input.now ∧ s.repCnt + 1 ≠ s.repsR ∧
       t = (checkReentry s.input.start s.sampled).countRepetition.startFrame) ∨
     (s.input.rst = false ∧ s.fsm = .code3 ∧ t = s.sampled)) := by
  by_cases hn : s.input.now < s.now
  · rw [step_not_admitted hn] at h; cases h
  refine ⟨by omega, ?_⟩
  rw [step_admitted (by omega)] at h
  unfold schedule at h
  by_cases hr : s.input.rst = true
  · rw [if_pos hr] at h
    exact .inl ⟨hr, (Host.Outcome.next.inj h).symm⟩
  rw [if_neg hr] at h
  have hr' : s.input.rst = false := by simpa using hr
  cases hf : s.fsm <;> simp only [State.sampled_fsm, hf] at h
  · split at h
    · rename_i hs
      simp only [Sequenced.finish, decode, decodeCmd, exec] at h
      rw [execTransmit_idle (by simp [hf])] at h
      refine .inr (.inr (.inl ⟨hr', rfl, hs, ?_⟩))
      rw [← Host.Outcome.next.inj h]
      rfl
    · rename_i hs
      exact .inr (.inl ⟨hr', rfl, by simpa using hs, (Host.Outcome.next.inj h).symm⟩)
  · by_cases hd : s.tNext ≤ s.input.now
    · rw [if_pos (by simpa [reached] using hd)] at h
      obtain ⟨h1, e⟩ | ⟨h1, h2, e⟩ | ⟨h1, h2, e⟩ := slotDone_cases (checkReentry s.input.start s.sampled) <;>
        rw [e] at h
      · rw [finish_fetchSlot] at h
        exact .inr (.inr (.inr (.inr (.inl ⟨hr', rfl, hd, by simpa using h1,
          by simpa using (Host.Outcome.next.inj h).symm⟩))))
      · rw [finish_fetchSlot] at h
        exact .inr (.inr (.inr (.inr (.inr (.inl ⟨hr', rfl, hd, by simpa using h1, by simpa using h2,
          by simpa using (Host.Outcome.next.inj h).symm⟩)))))
      · exact .inr (.inr (.inr (.inr (.inr (.inr (.inl ⟨hr', rfl, hd, by simpa using h1, by simpa using h2,
          by simpa using (Host.Outcome.next.inj h).symm⟩))))))
    · rw [if_neg (by simpa [reached] using hd)] at h
      exact .inr (.inr (.inr (.inl ⟨hr', rfl, by omega, (Host.Outcome.next.inj h).symm⟩)))
  · by_cases hd : s.gapEnd ≤ s.input.now
    · rw [if_pos (by simpa [reached] using hd)] at h
      obtain ⟨h1, e⟩ | ⟨h1, e⟩ := gapDone_cases (checkReentry s.input.start s.sampled) <;> rw [e] at h
      · exact .inr (.inr (.inr (.inr (.inr (.inr (.inr (.inr (.inl ⟨hr', rfl, hd, by simpa using h1,
          by simpa using (Host.Outcome.next.inj h).symm⟩))))))))
      · rw [finish_fetchSlot] at h
        exact .inr (.inr (.inr (.inr (.inr (.inr (.inr (.inr (.inr (.inl ⟨hr', rfl, hd, by simpa using h1,
          by simpa [State.startFrame] using (Host.Outcome.next.inj h).symm⟩)))))))))
    · rw [if_neg (by simpa [reached] using hd)] at h
      exact .inr (.inr (.inr (.inr (.inr (.inr (.inr (.inl ⟨hr', rfl, by omega, (Host.Outcome.next.inj h).symm⟩)))))))
  · exact .inr (.inr (.inr (.inr (.inr (.inr (.inr (.inr (.inr (.inr ⟨hr', rfl, (Host.Outcome.next.inj h).symm⟩)))))))))

/-- Sampling the inputs changes the last sampled time, the plan and the count of draws, and nothing else. -/
theorem State.sampled_eq (s : State) :
    s.sampled = { s with now := s.input.now, env := s.env.tail, draws := s.sampled.draws } := by
  ext <;> simp

/-- The state after the re-entry check of a step, field by field. -/
theorem checkReentry_sampled_eq (b : Bool) (s : State) :
    checkReentry b s.sampled = { s with
      faultReentry := s.faultReentry || b, now := s.input.now, env := s.env.tail, draws := s.sampled.draws } := by
  ext <;> simp

/-- Every step takes the first planned step and samples its time. -/
theorem step_env_now {s t : State} (h : step s = .next t) : t.env = s.env.tail ∧ t.now = s.input.now := by
  obtain ⟨-, ⟨-, rfl⟩ | ⟨-, -, -, rfl⟩ | ⟨-, -, -, rfl⟩ | ⟨-, -, -, rfl⟩ | ⟨-, -, -, -, rfl⟩ | ⟨-, -, -, -, -, rfl⟩ |
    ⟨-, -, -, -, -, rfl⟩ | ⟨-, -, -, rfl⟩ | ⟨-, -, -, -, rfl⟩ | ⟨-, -, -, -, rfl⟩ | ⟨-, -, rfl⟩⟩ := step_cases h
  case inr.inr.inl =>
    unfold State.accepted
    split <;> simp
  all_goals simp

/-- The next step takes the first planned input. -/
theorem State.input_of_env {s : State} {i : StepInput} {rest : List StepInput} (h : s.env = i :: rest) : s.input = i := by
  simp [State.input, h]

theorem run_succ_of_next (M : Host.Core) {k : Nat} {s t : M.State} (h : M.step s = .next t) :
    M.run (k + 1) s = M.run k t := by
  simp [Host.Core.run, h]

/-- A run of one step more starts with a step. -/
theorem core_run_succ {k : Nat} {s t : State} (h : step s = .next t) :
    Host.Core.run core (k + 1) s = Host.Core.run core k t := run_succ_of_next core h

end Sys2Proof.Machine
end

