-- ==== Sys2Proof/Laws/Progress.lean ====
section
/-! SUPPORT. The moves of a transmission, said once for states that meet the sequencing invariant. -/

namespace Sys2Proof.Machine

/-- What acceptance leaves: the latch alone, or the latch and slot 0 of Sync (R86, R87). -/
theorem State.accepted_cases (s : State) (cmd : Cmd64) :
    (valid (cmd.extractLsb' 32 8) (cmd.extractLsb' 48 16) = false ∧ s.accepted cmd =
      s.latch (cmd.extractLsb' 0 32) (cmd.extractLsb' 32 8) (cmd.getLsbD 40) (cmd.extractLsb' 48 16)) ∨
    (valid (cmd.extractLsb' 32 8) (cmd.extractLsb' 48 16) = true ∧ s.accepted cmd = { s with
      idR := latchedId (cmd.extractLsb' 0 32), unitR := cmd.extractLsb' 32 8, actR := cmd.getLsbD 40
      repsR := cmd.extractLsb' 48 16, repCnt := 0, tNext := s.now + Config.slotUs, symIdx := 0, slotIdx := 0
      fsm := .slot, pin := true, w := s.w ++ [⟨s.now, true⟩] }) := by
  unfold State.accepted
  split
  · refine .inr ⟨‹_›, ?_⟩
    rw [State.startFrame_eq]; rfl
  · rename_i h
    exact .inl ⟨by simpa using h, rfl⟩

/-- In SLOT the tuple names a symbol of the alphabet. -/
theorem SeqInv.currentSym {s : State} (h : SeqInv s) (hs : s.fsm = .slot) : ∃ y, s.currentSym = some y ∧
    symLen (some y) = if s.symIdx.toNat = 0 then 11 else if s.symIdx.toNat = 33 then 43 else 8 :=
  frameSym_some (h.2.1 (by simp [State.busy, hs])).1 (h.2.2 hs).1

/-- The next count of a transmission that is not at its last repetition stays below `reps_r`. -/
theorem repCnt_succ {x y : BitVec 16} (h : x.toNat < y.toNat) (hne : x + 1 ≠ y) :
    (x + 1).toNat = x.toNat + 1 ∧ x.toNat + 1 < y.toNat := by
  have hy := y.isLt
  have e : (x + 1).toNat = x.toNat + 1 := by rw [BitVec.toNat_add]; simp; omega
  refine ⟨e, ?_⟩
  have : (x + 1).toNat ≠ y.toNat := fun h => hne (BitVec.eq_of_toNat_eq h)
  omega

/-- The count at the last repetition. -/
theorem repCnt_last {x y : BitVec 16} (h : x.toNat < y.toNat) (he : x + 1 = y) : y.toNat = x.toNat + 1 := by
  have hy := y.isLt
  rw [← he, BitVec.toNat_add]
  simp
  omega

/-- Everything a step without reset can do to a transmission in progress (R89 to R92): wait, write the next slot of the
frame, end the frame, end the transmission, or begin the next frame. -/
theorem step_busy_cases {s t : State} (hI : SeqInv s) (hb : s.busy = true) (hr : s.input.rst = false)
    (h : step s = .next t) : s.now ≤ s.input.now ∧
    (((s.fsm = .slot ∧ s.input.now < s.tNext ∨ s.fsm = .gap ∧ s.input.now < s.gapEnd) ∧
       t = checkReentry s.input.start s.sampled) ∨
     (∃ (k j : BitVec 6) (y : Symbol), s.fsm = .slot ∧ s.tNext ≤ s.input.now ∧
       slotOffset k.toNat + j.toNat = s.frameSlot + 1 ∧ k.toNat ≤ 33 ∧ s.frameSymAt k.toNat = some y ∧
       j.toNat < symLen (some y) ∧
       t = ((checkReentry s.input.start s.sampled).moveTo k j).emitSymbol y) ∨
     (s.fsm = .slot ∧ s.tNext ≤ s.input.now ∧ s.frameSlot = 309 ∧ s.currentSym = some .pause ∧ s.slotIdx = 42 ∧
       t = (checkReentry s.input.start s.sampled).enterGap) ∨
     (s.fsm = .gap ∧ s.gapEnd ≤ s.input.now ∧ s.repsR.toNat = s.repCnt.toNat + 1 ∧
       t = (checkReentry s.input.start s.sampled).countRepetition.becomeIdle) ∨
     (s.fsm = .gap ∧ s.gapEnd ≤ s.input.now ∧ (s.repCnt + 1).toNat = s.repCnt.toNat + 1 ∧
       s.repCnt.toNat + 1 < s.repsR.toNat ∧
       t = (checkReentry s.input.start s.sampled).countRepetition.startFrame)) := by
  obtain ⟨hu, -, hc⟩ := hI.2.1 hb
  obtain ⟨hn, ⟨hr', -⟩ | ⟨-, hf, -⟩ | ⟨-, hf, -⟩ | ⟨-, hf, hw, rfl⟩ | ⟨-, hf, hd, hl, rfl⟩ | ⟨-, hf, hd, hl, hk, rfl⟩ |
    ⟨-, hf, hd, hl, hk, rfl⟩ | ⟨-, hf, hw, rfl⟩ | ⟨-, hf, hd, he, rfl⟩ | ⟨-, hf, hd, he, rfl⟩ | ⟨-, hf, rfl⟩⟩ := step_cases h
  · rw [hr] at hr'; cases hr'
  · simp [State.busy, hf] at hb
  · simp [State.busy, hf] at hb
  · exact ⟨hn, .inl ⟨.inl ⟨hf, hw⟩, rfl⟩⟩
  · obtain ⟨y, hy, hly⟩ := hI.currentSym hf
    have e64 : s.slotIdx.toNat + 1 < 64 := by have := symLen_le s.currentSym; omega
    refine ⟨hn, .inr (.inl ⟨s.symIdx, s.slotIdx + 1, y, hf, hd, ?_, (hI.2.2 hf).1, hy, ?_, ?_⟩)⟩
    · simp [State.frameSlot, Nat.mod_eq_of_lt e64]; omega
    · rw [hy] at hl; simpa [Nat.mod_eq_of_lt e64] using hl
    · rw [State.emitSlot_of_sym (y := y)]
      have hy' : s.frameSymAt s.symIdx.toNat = some y := hy
      simpa using hy'
  · have e64 : s.symIdx.toNat + 1 < 64 := by omega
    obtain ⟨y', hy', hly'⟩ := hI.currentSym hf
    obtain ⟨y, hy, hly⟩ := frameSym_some (id := s.idR) (act := s.actR) hu (show s.symIdx.toNat + 1 ≤ 33 by omega)
    have hs := (hI.2.2 hf).2
    refine ⟨hn, .inr (.inl ⟨s.symIdx + 1, 0, y, hf, hd, ?_, ?_, ?_, ?_, ?_⟩)⟩
    · have := slotOffset_succ (id := s.idR) (act := s.actR) hu (show s.symIdx.toNat < 33 by omega)
      have e : symLen (frameSym s.idR s.unitR s.actR s.symIdx.toNat) = symLen s.currentSym := rfl
      simp [State.frameSlot, Nat.mod_eq_of_lt e64]; omega
    · simp [Nat.mod_eq_of_lt e64]; omega
    · simpa [State.frameSymAt, Nat.mod_eq_of_lt e64] using hy
    · rw [hly]; simp only [BitVec.ofNat_eq_ofNat, BitVec.toNat_ofNat, Nat.zero_mod]; split <;> (try split) <;> omega
    · rw [State.emitSlot_of_sym (y := y)]
      simpa [State.frameSymAt, Nat.mod_eq_of_lt e64] using hy
  · have hs := hI.2.2 hf
    obtain ⟨y, hy, hly⟩ := hI.currentSym hf
    have h33 : s.symIdx.toNat = 33 := by omega
    have hp : s.currentSym = some .pause := by rw [State.currentSym, State.frameSymAt, h33]; rfl
    rw [hp, symLen_pause] at hl hs
    have h42 : s.slotIdx.toNat = 42 := by omega
    refine ⟨hn, .inr (.inr (.inl ⟨hf, hd, ?_, hp, BitVec.eq_of_toNat_eq h42, rfl⟩))⟩
    simp [State.frameSlot, h33, h42, slotOffset]
  · exact ⟨hn, .inl ⟨.inr ⟨hf, hw⟩, rfl⟩⟩
  · exact ⟨hn, .inr (.inr (.inr (.inl ⟨hf, hd, repCnt_last hc he, rfl⟩)))⟩
  · obtain ⟨e, e'⟩ := repCnt_succ hc he
    exact ⟨hn, .inr (.inr (.inr (.inr ⟨hf, hd, e, e', rfl⟩)))⟩
  · exact absurd hf hI.1

end Sys2Proof.Machine
end

