-- ==== Sys2Proof/Tests/Slice0.lean ====
section
/-! SUPPORT. Tests. Expected results are the vectors of 95_test_vectors.md or hand calculation from the rules, never the
model's own answer. The second half shows, for each statement with hypotheses, a state and operands that meet them all. -/

namespace Sys2Proof.Tests

open Sys2Proof Sys2Proof.Machine

/-- Does the outcome answer a next state with this property? -/
def nextIs (o : Host.Outcome State Fault Refusal) (p : State → Bool) : Bool :=
  match o with
  | .next t => p t
  | .fault _ => false
  | .refused _ => false

/-- A planned step with `start` = 0, one that presents E1, and one with `rst` = 1. -/
def poll (t : Nat) : StepInput := ⟨false, false, 0, t⟩
def startE1 (t : Nat) : StepInput := ⟨false, true, 0x0001010100000001#64, t⟩
def resetAt (t : Nat) : StepInput := ⟨true, true, 0x0001010100000001#64, t⟩

/-- IDLE, with the given step planned. -/
def idleThen (i : StepInput) : State := { State.reset with env := [i] }

/-- Right after the acceptance of E1 at time 0 (R86, R87), with the given steps planned. -/
def afterE1 (env : List StepInput) : State :=
  { State.reset with
    fsm := .slot, idR := 1, unitR := 1, actR := true, repsR := 1, tNext := 250, pin := true, w := [⟨0, true⟩], env := env }

/-- A transmission of frame F1 at a place of the frame, waiting for `tNext`. -/
def atPlace (k j : BitVec 6) (tNext : Nat) (i : StepInput) : State :=
  { afterE1 [i] with symIdx := k, slotIdx := j, tNext := tNext, pin := false, w := [] }

/-- The gap of the first of `reps` repetitions of F1 from time 0, with an empty log. -/
def inGap (reps : BitVec 16) (i : StepInput) : State :=
  { afterE1 [i] with
    fsm := .gap, repsR := reps, symIdx := 33, slotIdx := 42, tNext := 77500, gapEnd := 112500, now := 77500, pin := false
    w := [] }

/-! ### Well-formedness: what each check refuses -/

theorem test_wellFormed_rsv : Instr.wellFormed (.transmit 1 1 true 0x7F 1) = false ∧
    Instr.wellFormed (.transmit 1 1 true 0 1) = true := by decide

theorem test_wellFormed_asm_id : Asm.wellFormed (.transmit (2 ^ 32) 1 true 1) = false := by decide

theorem test_wellFormed_asm_unit : Asm.wellFormed (.transmit 1 256 true 1) = false := by decide

theorem test_wellFormed_asm_reps : Asm.wellFormed (.transmit 1 1 true 65536) = false := by decide

theorem test_wellFormed_default_form : Asm.wellFormed (.transmitDefault (2 ^ 32) 1 true) = false ∧
    Asm.wellFormed (.transmitDefault 1 256 true) = false ∧ Asm.wellFormed (.transmitDefault 1 1 true) = true := by decide

/-! ### Decoding: words of 95_test_vectors.md section 2.1 and the codes of R51 -/

theorem test_decode_E1 : decode (.cmd64 0x0001010100000001#64) = .transmit 1 1 true 0 1 := by decide

/-- E1 bit by bit: REPS, RSV, ACT, UNIT, ID. -/
theorem test_decode_E1_bits : decode (.cmd64
    (0b0000000000000001#16 ++ 0b0000000#7 ++ 0b1#1 ++ 0b00000001#8 ++ 0b00000000000000000000000000000001#32)) =
    .transmit 1 1 true 0 1 := by decide

theorem test_decode_E3_E8_E9_E11 :
    decode (.cmd64 0x0002000203FFFFFF#64) = .transmit 0x3FFFFFF 2 false 0 2 ∧
    decode (.cmd64 0xFFFF01FF00012345#64) = .transmit 0x12345 255 true 0 65535 ∧
    decode (.cmd64 0x00040103FC000005#64) = .transmit 0xFC000005 3 true 0 4 ∧
    decode (.cmd64 0x0001FF0100000001#64) = .transmit 1 1 true 0x7F 1 := by decide

theorem test_decode_symbols : decode (.sym2 0b00#2) = .sync ∧ decode (.sym2 0b01#2) = .zero ∧
    decode (.sym2 0b10#2) = .one ∧ decode (.sym2 0b11#2) = .pause := by decide

/-- E3 as bytes, little-endian (R39). -/
theorem test_decode_bytes_E3 : (decodeBytes [0xFF, 0xFF, 0xFF, 0x03, 0x02, 0x00, 0x02, 0x00]).toOption =
    some (.transmit 0x3FFFFFF 2 false 0 2) := by decide

theorem test_reject_bytes : (decodeBytes []).toOption = none ∧ (decodeBytes [4]).toOption = none ∧
    (decodeBytes [0, 0]).toOption = none ∧ (decodeBytes [1, 2, 3, 4, 5, 6, 7, 8, 9]).toOption = none := by decide

theorem test_tableWord : decodeTableWord 64 0x0001010100000001 = some (.transmit 1 1 true 0 1) ∧
    decodeTableWord 8 0 = some .sync ∧ decodeTableWord 8 1 = some .zero ∧ decodeTableWord 8 2 = some .one ∧
    decodeTableWord 8 3 = some .pause ∧ decodeTableWord 8 4 = none := by decide

/-- E2, E4 and E8 through the assembler, and an operand out of its range. -/
theorem test_assemble :
    (Asm.transmitDefault 1 1 true).assemble.map encode = some (.cmd64 0x0004010100000001#64) ∧
    (Asm.transmit 0 4 false 1).assemble.map encode = some (.cmd64 0x0001000400000000#64) ∧
    (Asm.transmit 0x12345 255 true 65535).assemble.map encode = some (.cmd64 0xFFFF01FF00012345#64) ∧
    (Asm.transmit 1 1 true 65536).assemble = none := by decide

/-- R95, R134: 257 and -1 are no alias of unit 1 or 255, and a count above 65535 is split. -/
theorem test_host_integers :
    (Call.mk 5 257 true 4).unitField = 0 ∧ (Call.mk 5 (-1) true 4).unitField = 0 ∧ (Call.mk 5 4 true 4).unitField = 4 ∧
    (Call.mk (-1) 1 true 4).idField = 0xFFFFFFFF ∧ (Call.mk 5 1 true 65536).repsFields = [65535, 1] ∧
    (Call.mk 5 1 true 131070).repsFields = [65535, 65535] ∧ (Call.mk 5 1 true 0).repsFields = [0] := by decide

/-! ### ROMs and frames: sections 2.2 and 2.3 -/

/-- The four words of R60 and what they hold. -/
theorem test_patRom : patRom 0b00#2 = 0x0580000000001#49 ∧ romRead .sync = (11#6, 1#43) ∧
    patRom 0b01#2 = 0x0400000000041#49 ∧ romRead .zero = (8#6, 0x41#43) ∧
    patRom 0b10#2 = 0x0400000000005#49 ∧ romRead .one = (8#6, 5#43) ∧
    patRom 0b11#2 = 0x1580000000001#49 ∧ romRead .pause = (43#6, 1#43) := by decide

/-- R-S, R-0, R-1, R-P and R-X. -/
theorem test_patterns : patternOf (some .sync) = true :: List.replicate 10 false ∧
    patternOf (some .zero) = [true, false, false, false, false, false, true, false] ∧
    patternOf (some .one) = [true, false, true, false, false, false, false, false] ∧
    patternOf (some .pause) = true :: List.replicate 42 false ∧ patternOf none = [] := by decide

/-- A frame written as its 32 payload symbols, Zero and One as bits, the first symbol as the top bit. -/
def framed (payload : BitVec 32) : List (Option Symbol) :=
  some .sync :: (List.range 32).map (fun k => some (if payload.getMsbD k then Symbol.one else Symbol.zero)) ++ [some .pause]

theorem test_frame_F1 : frame 0x0000001 1 true = framed 0b00000000000000000000000001101111#32 := by decide
theorem test_frame_F3 : frame 0x1000001 1 true = framed 0b01000000000000000000000001101111#32 := by decide
theorem test_frame_F4 : frame 0x0000000 4 false = framed 0b00000000000000000000000000111100#32 := by decide
theorem test_frame_F6 : frame (latchedId 0xFC000005) 3 true = framed 0b00000000000000000000000101101101#32 := by decide
theorem test_frame_F9 : frame 0x0ABCDEF 2 true = framed 0b00101010111100110111101111101110#32 := by decide

theorem test_frame_F5 : frame 0x3FFFFFF 2 false = framed 0b11111111111111111111111111111110#32 := by decide

/-- R81 and section 2.3. -/
theorem test_slotOffset : slotOffset 0 = 0 ∧ slotOffset 1 = 11 ∧ slotOffset 2 = 19 ∧ slotOffset 26 = 211 ∧
    slotOffset 27 = 219 ∧ slotOffset 28 = 227 ∧ slotOffset 31 = 251 ∧ slotOffset 32 = 259 ∧ slotOffset 33 = 267 := by decide

/-! ### One operation on a small state, and one step from reset with the word placed -/

/-- S2 for the operation: E1 in IDLE at 1000. -/
theorem test_exec_transmit : nextIs (exec (.transmit 1 1 true 0 1) { State.reset with now := 1000 }) fun t =>
    t.fsm == .slot && t.tNext == 1250 && t.pin && t.w == [⟨1000, true⟩] && t.repsR == 1 := by decide

/-- E5: unit 0 latches and does nothing else. -/
theorem test_exec_transmit_unit0 : nextIs (exec (.transmit 1 0 true 0 4) State.reset) fun t =>
    t.fsm == .idle && t.w == [] && t.unitR == 0 && t.repsR == 4 && t.idR == 1 := by decide

/-- The example of R88: with `t_next` 1250 and `slot_idx` 1, Sync leaves 1500 and emits LOW. -/
theorem test_exec_sync : nextIs (exec .sync (atPlace 0 1 1250 (poll 0))) fun t =>
    t.tNext == 1500 && t.pin == false && t.w == [⟨0, false⟩] := by decide

/-- R69: the second pulse of Zero is at slot 6, and slot 2 is LOW. -/
theorem test_exec_zero : nextIs (exec .zero (atPlace 1 6 4250 (poll 0))) (fun t => t.pin && t.tNext == 4500) ∧
    nextIs (exec .zero (atPlace 1 2 4250 (poll 0))) (fun t => t.pin == false) := by decide

/-- R70: the second pulse of One is at slot 2, and slot 6 is LOW. -/
theorem test_exec_one : nextIs (exec .one (atPlace 1 2 4250 (poll 0))) (fun t => t.pin && t.tNext == 4500) ∧
    nextIs (exec .one (atPlace 1 6 4250 (poll 0))) (fun t => t.pin == false) := by decide

/-- R71: Pause is HIGH at slot 0 and LOW at slot 42. -/
theorem test_exec_pause : nextIs (exec .pause (atPlace 33 0 66750 (poll 0))) (fun t => t.pin && t.tNext == 67000) ∧
    nextIs (exec .pause (atPlace 33 42 77250 (poll 0))) (fun t => t.pin == false && t.tNext == 77500) := by decide

theorem test_first_step_transmit : nextIs (step (State.reset.withFetchWord 64 0x0001010100000001)) fun t =>
    t.fsm == .slot && t.w == [⟨0, true⟩] && t.tNext == 250 && t.idR == 1 := by decide

theorem test_first_step_symbols :
    nextIs (step (State.reset.withFetchWord 8 0)) (fun t => t.symIdx == 0 && t.slotIdx == 0 && t.w == [⟨0, true⟩]) ∧
    nextIs (step (State.reset.withFetchWord 8 1)) (fun t => t.symIdx == 28 && t.currentSym == some .zero && t.pin) ∧
    nextIs (step (State.reset.withFetchWord 8 2)) (fun t => t.symIdx == 28 && t.currentSym == some .one && t.pin) ∧
    nextIs (step (State.reset.withFetchWord 8 3)) (fun t => t.symIdx == 33 && t.currentSym == some .pause && t.pin) := by
  decide

/-! ### Steps of the state machine: section 2.5 -/

/-- S3, S9: one µs before the deadline nothing changes. -/
theorem test_S3_S9 : nextIs (step (afterE1 [poll 249])) (fun t => t == { afterE1 [] with now := 249 }) ∧
    nextIs (step (inGap 1 (poll 112499))) (fun t => t.fsm == .gap && t.gapEnd == 112500 && t.w == []) := by decide

/-- S4. -/
theorem test_S4 : nextIs (step (afterE1 [poll 250])) fun t =>
    t.slotIdx == 1 && t.tNext == 500 && t.pin == false && t.w == [⟨0, true⟩, ⟨250, false⟩] := by decide

/-- S5, S6, S7 with F = 0. -/
theorem test_S5_S6_S7 :
    nextIs (step (atPlace 0 10 2750 (poll 2750))) (fun t =>
      t.symIdx == 1 && t.slotIdx == 0 && t.tNext == 3000 && t.w == [⟨2750, true⟩]) ∧
    nextIs (step (atPlace 1 6 4500 (poll 4500))) (fun t => t.slotIdx == 7 && t.tNext == 4750 && t.w == [⟨4500, false⟩]) ∧
    nextIs (step (atPlace 1 5 4250 (poll 4250))) (fun t => t.slotIdx == 6 && t.tNext == 4500 && t.w == [⟨4250, true⟩]) := by
  decide

/-- S8 with F = 0: the gap is timed from the actual time, not from the deadline. -/
theorem test_S8 : nextIs (step (atPlace 33 42 77500 (poll 77600))) fun t =>
    t.fsm == .gap && t.gapEnd == 112600 && t.w == [] := by decide

/-- S10, S11. -/
theorem test_S10_S11 :
    nextIs (step (inGap 1 (poll 112500))) (fun t => t.fsm == .idle && t.repCnt == 1 && t.w == []) ∧
    nextIs (step (inGap 2 (poll 112505))) (fun t => t.fsm == .slot && t.repCnt == 1 && t.symIdx == 0 && t.slotIdx == 0 &&
      t.tNext == 112755 && t.pin && t.w == [⟨112505, true⟩]) := by decide

/-- S12, S13, S14: a re-entry, with its arm still run. -/
theorem test_S12_S13_S14 :
    nextIs (step (atPlace 2 0 5000 (startE1 5000))) (fun t =>
      t.faultReentry && t.slotIdx == 1 && t.tNext == 5250 && t.w == [⟨5000, false⟩]) ∧
    nextIs (step (inGap 1 (startE1 112490))) (fun t => t.faultReentry && t.fsm == .gap && t.repCnt == 0) ∧
    nextIs (step (inGap 1 (startE1 112500))) (fun t => t.faultReentry && t.fsm == .idle && t.w == []) := by decide

/-- S15 in the middle of a pulse, S16. -/
theorem test_S15_S16 :
    nextIs (step (afterE1 [resetAt 100])) (fun t => t.fsm == .idle && t.pin == false && t.w == [] && !t.faultReentry) ∧
    nextIs (step (idleThen (resetAt 0))) (fun t => t.fsm == .idle && t.w == [] && !t.faultReentry) := by decide

/-- S18: stuck, whatever `start` is. -/
theorem test_S18 : nextIs (step { idleThen (startE1 5) with fsm := .code3 }) fun t =>
    t == { State.reset with fsm := .code3, now := 5 } := by decide

/-- U12: a step whose time has decreased is not admitted. -/
theorem test_U12 : step { idleThen (poll 4) with now := 5 } = .refused (.nowDecreased 5 4) := rfl

/-- Lines of P2 as planned steps (R59). -/
theorem test_host_program : (State.reset.withProgram [.transmitAt 0 (.transmit 1 0 true 4), .pollAt 7,
    .transmitAt 10 (.transmit 1 5 false 4)]).env =
    [⟨false, true, 0x0004010000000001#64, 0⟩, ⟨false, false, 0, 7⟩, ⟨false, true, 0x0004000500000001#64, 10⟩] := by decide

/-- R130 with an 8-bit clock that has wrapped, and R97 with two events at one time. -/
theorem test_clock_and_level : reachedFinite 8 (BitVec.ofNat 8 260) (BitVec.ofNat 8 250) = true ∧
    reachedFinite 8 (BitVec.ofNat 8 250) (BitVec.ofNat 8 260) = false ∧
    levelAt [⟨5, true⟩, ⟨5, false⟩, ⟨9, true⟩] 8 = false ∧ levelAt [⟨5, true⟩] 4 = false := by decide

/-! ### Witnesses: for each statement with hypotheses, values that meet them all, each clause at the edge of its range -/

theorem witness_EncodeOfDecodedBytes : decodeBytes [3] = .ok .pause ∧
    decodeBytes [1, 0, 0, 0, 1, 1, 1, 0] = .ok (.transmit 1 1 true 0 1) := ⟨rfl, rfl⟩

theorem witness_AssemblerWord :
    (2 ^ 32 - 1 < 2 ^ 32 ∧ 255 < 2 ^ 8 ∧ 65535 < 2 ^ 16) ∧ ¬ (2 ^ 32 < 2 ^ 32 ∧ 255 < 2 ^ 8 ∧ 65535 < 2 ^ 16) ∧
    ¬ (0 < 2 ^ 32 ∧ 256 < 2 ^ 8 ∧ 0 < 2 ^ 16) ∧ ¬ (0 < 2 ^ 32 ∧ 0 < 2 ^ 8 ∧ 65536 < 2 ^ 16) := by decide

theorem witness_SplitRepetitionsAddUp :
    (Call.mk 5 1 true 65536).repetitions ≠ 0 ∧ 1 ∈ (Call.mk 5 1 true 65536).repsFields := by decide

theorem witness_HostUnitNeverAliases : (1 ≤ (Call.mk 5 1 true 4).unit ∧ (Call.mk 5 1 true 4).unit ≤ 4) ∧
    (1 ≤ (Call.mk 5 4 true 4).unit ∧ (Call.mk 5 4 true 4).unit ≤ 4) := by decide

theorem witness_ZeroRule : (0x0000001#26).getLsbD (26 - 1) = false ∧ (0x2000000#26).getLsbD (26 - 26) = false := by decide

theorem witness_OneRule : (0x2000000#26).getLsbD (26 - 1) = true ∧ (0x0000001#26).getLsbD (26 - 26) = true := by decide

theorem witness_DataSymReadsIdBit : (1 ≤ 1 ∧ 1 ≤ 26) ∧ (1 ≤ 26 ∧ 26 ≤ 26) := by decide

theorem witness_SyncAndPauseFrameEveryFrame : 0 ∈ [0, 27, 29, 30, 33] ∧ 33 ∈ [0, 27, 29, 30, 33] ∧ (1 ≤ 1 ∧ 1 ≤ 26) ∧
    (1 ≤ 26 ∧ 26 ≤ 26) := by decide

/-- PauseRule, UnitFieldsAreTheTable: the valid units, and their neighbours, which are not valid. -/
theorem witness_valid_units : unitValid 1 = true ∧ unitValid 2 = true ∧ unitValid 3 = true ∧ unitValid 4 = true ∧
    unitValid 0 = false ∧ unitValid 5 = false := by decide

theorem witness_SymbolOperationsEmitOneSlot : (atPlace 0 10 0 (poll 0)).slotIdx.toNat < 11 ∧
    (atPlace 1 7 0 (poll 0)).slotIdx.toNat < 8 ∧ (atPlace 33 42 0 (poll 0)).slotIdx.toNat < 43 := by decide

theorem witness_SymbolsCompleteInEveryState :
    (atPlace 0 10 0 (poll 0)).slotIdx.toNat < symLen (some .sync) ∧
    (symLen (some .sync) ≤ (atPlace 0 11 0 (poll 0)).slotIdx.toNat ∧ (atPlace 0 11 0 (poll 0)).slotIdx.toNat < 43) ∧
    (symLen (some .zero) ≤ (atPlace 0 42 0 (poll 0)).slotIdx.toNat ∧ (atPlace 0 42 0 (poll 0)).slotIdx.toNat < 43) := by
  decide

theorem witness_PatternProperties : (patternOf (some .zero))[6]? = some true := by decide

theorem witness_SlotAddressing : unitValid 2 = true ∧ 10 < symLen (frameSym 1 2 true 0) ∧
    42 < symLen (frameSym 1 2 true 33) := by decide

theorem witness_FramePulses : unitValid 2 = true ∧ (framePattern 1 2 true)[0]? = some true := ⟨rfl, rfl⟩

theorem witness_TransmitAccepts : State.reset.fsm = .idle ∧
    (((4 : BitVec 8) = 1 ∨ (4 : BitVec 8) = 2 ∨ (4 : BitVec 8) = 3 ∨ (4 : BitVec 8) = 4) ∧ 1 ≤ (1 : BitVec 16).toNat) ∧
    ¬ (((5 : BitVec 8) = 1 ∨ (5 : BitVec 8) = 2 ∨ (5 : BitVec 8) = 3 ∨ (5 : BitVec 8) = 4) ∧ 1 ≤ (1 : BitVec 16).toNat) ∧
    ¬ (((1 : BitVec 8) = 1 ∨ (1 : BitVec 8) = 2 ∨ (1 : BitVec 8) = 3 ∨ (1 : BitVec 8) = 4) ∧
      1 ≤ (0 : BitVec 16).toNat) := by decide

/-- Unit 5 with reps 4 (E6), and unit 2 with reps 0 (E7). -/
theorem witness_InvalidCommandIsSilent :
    ((idleThen ⟨false, true, 0x0004000500000001#64, 0⟩).fsm = .idle ∧
      (idleThen ⟨false, true, 0x0004000500000001#64, 0⟩).now ≤ (idleThen ⟨false, true, 0x0004000500000001#64, 0⟩).input.now ∧
      ¬ (1 ≤ ((0x0004000500000001#64).extractLsb' 32 8).toNat ∧ ((0x0004000500000001#64).extractLsb' 32 8).toNat ≤ 4)) ∧
    ((idleThen ⟨false, true, 0x0000000200000005#64, 0⟩).fsm = .idle ∧
      (idleThen ⟨false, true, 0x0000000200000005#64, 0⟩).now ≤ (idleThen ⟨false, true, 0x0000000200000005#64, 0⟩).input.now ∧
      ((0x0000000200000005#64).extractLsb' 48 16).toNat = 0) ∧
    ∀ cmd, (idleThen ⟨false, true, cmd, 0⟩).input = ⟨false, true, cmd, 0⟩ :=
  ⟨⟨rfl, Nat.le_refl _, by decide⟩, ⟨rfl, Nat.le_refl _, by decide⟩, fun _ => rfl⟩

theorem witness_TransmitWhileBusy : (afterE1 []).fsm = .slot ∧ (inGap 1 (poll 0)).fsm = .gap ∧
    ({ State.reset with fsm := .code3 } : State).fsm = .code3 := ⟨rfl, rfl, rfl⟩

/-- E1 and the same word with every ignored bit set. -/
theorem witness_IgnoredCommandBits : ∀ j, j < 64 → ¬ (26 ≤ j ∧ j ≤ 31) → ¬ (41 ≤ j ∧ j ≤ 47) →
    (0x0001010100000001#64).getLsbD j = (0x0001FF01FC000001#64).getLsbD j := by decide

theorem witness_LatchedSlices : State.reset.fsm = .idle := rfl

/-- A command in IDLE; slot 9 to 10 of Sync; the last slot of Unit 2 to Pause; the end of the first of two gaps. -/
theorem witness_StepRunsTheDecodedOperation :
    ((idleThen (startE1 0)).now ≤ (idleThen (startE1 0)).input.now ∧ (idleThen (startE1 0)).input.rst = false ∧
      (idleThen (startE1 0)).fsm = .idle ∧ (idleThen (startE1 0)).input.start = true) ∧
    ((atPlace 0 9 2500 (poll 2500)).now ≤ (atPlace 0 9 2500 (poll 2500)).input.now ∧
      (atPlace 0 9 2500 (poll 2500)).input.rst = false ∧ (atPlace 0 9 2500 (poll 2500)).fsm = .slot ∧
      (atPlace 0 9 2500 (poll 2500)).tNext ≤ (atPlace 0 9 2500 (poll 2500)).input.now ∧
      (atPlace 0 9 2500 (poll 2500)).slotIdx.toNat + 1 < symLen (atPlace 0 9 2500 (poll 2500)).currentSym ∧
      (atPlace 0 9 2500 (poll 2500)).currentSym = some .sync) ∧
    ((atPlace 32 7 66750 (poll 66750)).now ≤ (atPlace 32 7 66750 (poll 66750)).input.now ∧
      (atPlace 32 7 66750 (poll 66750)).input.rst = false ∧ (atPlace 32 7 66750 (poll 66750)).fsm = .slot ∧
      (atPlace 32 7 66750 (poll 66750)).tNext ≤ (atPlace 32 7 66750 (poll 66750)).input.now ∧
      symLen (atPlace 32 7 66750 (poll 66750)).currentSym ≤ (atPlace 32 7 66750 (poll 66750)).slotIdx.toNat + 1 ∧
      (atPlace 32 7 66750 (poll 66750)).symIdx.toNat + 1 < 34 ∧
      (atPlace 32 7 66750 (poll 66750)).frameSymAt ((atPlace 32 7 66750 (poll 66750)).symIdx.toNat + 1) = some .pause) ∧
    ((inGap 2 (poll 112500)).now ≤ (inGap 2 (poll 112500)).input.now ∧ (inGap 2 (poll 112500)).input.rst = false ∧
      (inGap 2 (poll 112500)).fsm = .gap ∧ (inGap 2 (poll 112500)).gapEnd ≤ (inGap 2 (poll 112500)).input.now ∧
      (inGap 2 (poll 112500)).repCnt + 1 ≠ (inGap 2 (poll 112500)).repsR) := by decide

theorem witness_AdmittedStepsComplete : (afterE1 [poll 0]).now ≤ (afterE1 [poll 0]).input.now := by decide

theorem witness_DecreasingTimeIsRefused : ({ idleThen (poll 4) with now := 5 } : State).input.now <
    ({ idleThen (poll 4) with now := 5 } : State).now := by decide

theorem witness_ResetFromAnyState : (afterE1 [resetAt 0]).now ≤ (afterE1 [resetAt 0]).input.now ∧
    (afterE1 [resetAt 0]).input.rst = true := by decide

/-- The last µs of a slot and of a gap, each with a `start`, and an idle step. -/
theorem witness_WaitingStepChangesNothing :
    ((afterE1 [startE1 249]).now ≤ (afterE1 [startE1 249]).input.now ∧ (afterE1 [startE1 249]).input.rst = false ∧
      (afterE1 [startE1 249]).fsm = .slot ∧ (afterE1 [startE1 249]).input.now < (afterE1 [startE1 249]).tNext) ∧
    ((inGap 1 (startE1 112499)).now ≤ (inGap 1 (startE1 112499)).input.now ∧
      (inGap 1 (startE1 112499)).input.rst = false ∧ (inGap 1 (startE1 112499)).fsm = .gap ∧
      (inGap 1 (startE1 112499)).input.now < (inGap 1 (startE1 112499)).gapEnd) ∧
    ((idleThen (poll 0)).now ≤ (idleThen (poll 0)).input.now ∧ (idleThen (poll 0)).input.rst = false ∧
      (idleThen (poll 0)).fsm = .idle ∧ (idleThen (poll 0)).input.start = false) := by decide

theorem witness_ReentryOnlySetsTheFlag : (afterE1 []).fsm = .slot ∧ (inGap 1 (poll 0)).fsm = .gap ∧
    (startE1 112500).rst = false ∧ (afterE1 []).now ≤ (startE1 112500).now ∧
    (inGap 1 (poll 0)).now ≤ (startE1 112500).now := by decide

/-- In SLOT with a `start`; in IDLE without one; in IDLE with one in a reset step. -/
theorem witness_CommandIsReadAtAcceptanceOnly :
    ¬ ((afterE1 []).fsm = .idle ∧ (startE1 0).start = true ∧ (startE1 0).rst = false) ∧
    ¬ (State.reset.fsm = .idle ∧ (poll 0).start = true ∧ (poll 0).rst = false) ∧
    ¬ (State.reset.fsm = .idle ∧ (resetAt 0).start = true ∧ (resetAt 0).rst = false) := by decide

/-- Slot 9 to 10 of Sync; the last slot of Sync to data symbol 1; the last slot of Pause to the gap. -/
theorem witness_SlotDoneMoves :
    ((atPlace 0 9 2500 (poll 2500)).now ≤ (atPlace 0 9 2500 (poll 2500)).input.now ∧
      (atPlace 0 9 2500 (poll 2500)).input.rst = false ∧ (atPlace 0 9 2500 (poll 2500)).fsm = .slot ∧
      (atPlace 0 9 2500 (poll 2500)).tNext ≤ (atPlace 0 9 2500 (poll 2500)).input.now ∧
      (atPlace 0 9 2500 (poll 2500)).currentSym = some .sync ∧
      (atPlace 0 9 2500 (poll 2500)).slotIdx.toNat + 1 < symLen (some .sync)) ∧
    ((atPlace 0 10 2750 (poll 2750)).now ≤ (atPlace 0 10 2750 (poll 2750)).input.now ∧
      (atPlace 0 10 2750 (poll 2750)).input.rst = false ∧ (atPlace 0 10 2750 (poll 2750)).fsm = .slot ∧
      (atPlace 0 10 2750 (poll 2750)).tNext ≤ (atPlace 0 10 2750 (poll 2750)).input.now ∧
      symLen (atPlace 0 10 2750 (poll 2750)).currentSym ≤ (atPlace 0 10 2750 (poll 2750)).slotIdx.toNat + 1 ∧
      (atPlace 0 10 2750 (poll 2750)).symIdx.toNat < 33 ∧ unitValid (atPlace 0 10 2750 (poll 2750)).unitR = true) ∧
    ((atPlace 33 42 77500 (poll 77500)).now ≤ (atPlace 33 42 77500 (poll 77500)).input.now ∧
      (atPlace 33 42 77500 (poll 77500)).input.rst = false ∧ (atPlace 33 42 77500 (poll 77500)).fsm = .slot ∧
      (atPlace 33 42 77500 (poll 77500)).tNext ≤ (atPlace 33 42 77500 (poll 77500)).input.now ∧
      symLen (atPlace 33 42 77500 (poll 77500)).currentSym ≤ (atPlace 33 42 77500 (poll 77500)).slotIdx.toNat + 1 ∧
      33 ≤ (atPlace 33 42 77500 (poll 77500)).symIdx.toNat) := by decide

/-- The last repetition, and one before the last. -/
theorem witness_GapDoneMoves :
    ((inGap 1 (poll 112500)).now ≤ (inGap 1 (poll 112500)).input.now ∧ (inGap 1 (poll 112500)).input.rst = false ∧
      (inGap 1 (poll 112500)).fsm = .gap ∧ (inGap 1 (poll 112500)).gapEnd ≤ (inGap 1 (poll 112500)).input.now ∧
      (inGap 1 (poll 112500)).repCnt + 1 = (inGap 1 (poll 112500)).repsR) ∧
    ((inGap 2 (poll 112500)).now ≤ (inGap 2 (poll 112500)).input.now ∧ (inGap 2 (poll 112500)).input.rst = false ∧
      (inGap 2 (poll 112500)).fsm = .gap ∧ (inGap 2 (poll 112500)).gapEnd ≤ (inGap 2 (poll 112500)).input.now ∧
      (inGap 2 (poll 112500)).repCnt + 1 ≠ (inGap 2 (poll 112500)).repsR) := by decide

theorem witness_StuckUntilReset : ({ idleThen (startE1 5) with fsm := .code3 } : State).now ≤
      ({ idleThen (startE1 5) with fsm := .code3 } : State).input.now ∧
    ({ idleThen (startE1 5) with fsm := .code3 } : State).input.rst = false ∧
    ({ idleThen (startE1 5) with fsm := .code3 } : State).fsm = .code3 := by decide

/-- Steps without reset that answer a next state: one that writes slot 1, one that waits, one that accepts, one that ends
the transmission, one that begins frame 1. PinAndLogChangeTogether, DeadlineIsDriftFree (both clauses), FaultIsSticky and
BusyRisesAndFalls (rise and fall). -/
theorem witness_steps : (∃ t, step (afterE1 [poll 250]) = .next t ∧ t.w.length = 2 ∧ t.fsm = .slot) ∧
    (∃ t, step (afterE1 [startE1 249]) = .next t ∧ t.faultReentry = true ∧ t.fsm = .slot) ∧
    (∃ t, step (idleThen (startE1 0)) = .next t ∧ t.busy = true) ∧
    (∃ t, step (inGap 1 (poll 112500)) = .next t ∧ t.busy = false) ∧
    (∃ t, step (inGap 2 (poll 112500)) = .next t ∧ t.fsm = .slot) ∧
    (afterE1 [poll 250]).input.rst = false ∧ (afterE1 [startE1 249]).input.rst = false ∧
    (idleThen (startE1 0)).input.rst = false ∧ (inGap 1 (poll 112500)).input.rst = false ∧
    (inGap 2 (poll 112500)).input.rst = false :=
  ⟨⟨_, rfl, rfl, rfl⟩, ⟨_, rfl, rfl, rfl⟩, ⟨_, rfl, rfl⟩, ⟨_, rfl, rfl⟩, ⟨_, rfl, rfl⟩, rfl, rfl, rfl, rfl, rfl⟩

/-- A busy step, and an idle one without `start`; that both answer a next state: witness_steps, and the waiting step. -/
theorem witness_LatchedCommandIsImmutable :
    ¬ ((afterE1 [startE1 249]).fsm = .idle ∧ (afterE1 [startE1 249]).input.start = true) ∧
    ¬ ((idleThen (poll 0)).fsm = .idle ∧ (idleThen (poll 0)).input.start = true) := by decide

theorem witness_CatchUpCollapse : SeqInv (afterE1 (polls [500, 500])) ∧ (afterE1 (polls [500, 500])).fsm = .slot ∧
    (afterE1 (polls [500, 500])).frameSlot + 2 < 310 ∧ (afterE1 (polls [500, 500])).now ≤ 500 ∧
    (afterE1 (polls [500, 500])).tNext + 250 ≤ 500 ∧ (afterE1 (polls [500, 500])).env = polls [500, 500] ++ [] := by
  unfold SeqInv; decide

/-- The state right after an acceptance meets every invariant at once, and the step that writes slot 1 follows. The six
statements StepKeeps…, PulsesAreOneSlotLong, and the busy clauses of SlotCount, NeverAheadOfTheIdeal, IdealScheduleIsExact. -/
theorem witness_invariants : SeqInv (afterE1 [poll 250]) ∧ TimeInv (afterE1 [poll 250]) ∧ PinInv (afterE1 [poll 250]) ∧
    QuietInv (afterE1 [poll 250]) ∧ DeadlineInv (afterE1 [poll 250]) ∧ (afterE1 [poll 250]).busy = true ∧
    (afterE1 [poll 250]).input.rst = false ∧ NotBeforeIdeal 0 (afterE1 [poll 250]) ∧ OnIdeal 0 (afterE1 [poll 250]) ∧
    (afterE1 [poll 250]).deadline = some (afterE1 [poll 250]).input.now ∧ ∃ t, step (afterE1 [poll 250]) = .next t := by
  refine ⟨by unfold SeqInv; decide, by unfold TimeInv; decide, by unfold PinInv; decide, ⟨by decide, fun _ => ⟨.sync, rfl, rfl⟩⟩,
    by unfold DeadlineInv; decide, rfl, rfl, by unfold NotBeforeIdeal; decide, by unfold OnIdeal; decide, rfl, ⟨_, rfl⟩⟩

theorem witness_PulsesAreOneSlotLong : ∀ n, (levelsOf (afterE1 [poll 250]).w)[n]? = some true →
    (levelsOf (afterE1 [poll 250]).w)[n + 1]? ≠ some true := by
  intro n _
  simp [levelsOf, afterE1]

/-- E1 (the lower edges) in IDLE; unit 4 and reps 65535 are the upper edges. -/
theorem witness_AcceptedCommandStartsTheWaveform :
    (idleThen (startE1 0)).fsm = .idle ∧ (idleThen (startE1 0)).now ≤ (idleThen (startE1 0)).input.now ∧
    (idleThen (startE1 0)).input.rst = false ∧ (idleThen (startE1 0)).input.start = true ∧
    unitValid ((idleThen (startE1 0)).input.cmd.extractLsb' 32 8) = true ∧
    1 ≤ ((idleThen (startE1 0)).input.cmd.extractLsb' 48 16).toNat ∧
    unitValid ((0xFFFF000400000000#64).extractLsb' 32 8) = true ∧
    1 ≤ ((0xFFFF000400000000#64).extractLsb' 48 16).toNat :=
  ⟨rfl, Nat.le_refl _, rfl, rfl, by decide, by decide, by decide, by decide⟩

/-- The gap of the one repetition of E1, every slot of frame F1 written on time, the poll at its end planned. -/
def endOfF1 : State := { inGap 1 (poll 112500) with w := idealEvents 0 (framePattern 1 1 true) }

theorem framePattern_F1_length : (framePattern 1 1 true).length = 310 := by
  simp only [framePattern, List.length_flatMap, patternOf_length]
  decide

theorem levelsOf_idealEvents (origin : Nat) (ls : List Level) : levelsOf (idealEvents origin ls) = ls := by
  apply List.ext_getElem? ; intro i
  simp [levelsOf, idealEvents, Function.comp_def]

/-- The waveform at its first slot, with the step that writes slot 1. -/
theorem witness_StepKeepsTheWaveform_busy : SeqInv (afterE1 [poll 250]) ∧ WaveInv [] (afterE1 [poll 250]) ∧
    (afterE1 [poll 250]).busy = true ∧ (afterE1 [poll 250]).input.rst = false ∧
    ∃ t, step (afterE1 [poll 250]) = .next t ∧ t.busy = true := by
  refine ⟨by unfold SeqInv; decide, ⟨fun _ => ⟨[], [⟨0, true⟩], 0, rfl, rfl, rfl, rfl, ?_, rfl⟩, ?_⟩, rfl, rfl, ⟨_, rfl, rfl⟩⟩
  · rintro (_ | n) e he
    · cases he; exact ⟨fun _ => rfl, by decide⟩
    · simp at he
  · exact fun h => by cases h

/-- The waveform in its last gap, with the step that ends the transmission. -/
theorem witness_StepKeepsTheWaveform_end : SeqInv endOfF1 ∧ WaveInv [] endOfF1 ∧ endOfF1.busy = true ∧
    endOfF1.input.rst = false ∧ ∃ t, step endOfF1 = .next t ∧ t.busy = false := by
  refine ⟨by unfold SeqInv; decide, ⟨fun h => (by cases h), fun _ => ⟨[], idealEvents 0 (framePattern 1 1 true), 0, ?_, rfl,
    levelsOf_idealEvents _ _, ?_, ?_, by decide⟩⟩, rfl, rfl, ⟨_, rfl, rfl⟩⟩
  · simp only [endOfF1, List.nil_append]
  · rw [idealEvents, List.length_mapIdx, framePattern_F1_length]; rfl
  · intro n e he
    simp only [idealEvents, List.getElem?_mapIdx, Option.map_eq_some_iff] at he
    obtain ⟨l, -, rfl⟩ := he
    exact ⟨fun h => by subst h; rfl, Nat.le_refl _⟩

/-- The last gap on the ideal schedule: the clauses of SlotCount, NeverAheadOfTheIdeal and IdealScheduleIsExact about the
step in which `busy` falls. -/
theorem witness_busy_falls : SeqInv endOfF1 ∧ NotBeforeIdeal 0 endOfF1 ∧ OnIdeal 0 endOfF1 ∧ endOfF1.busy = true ∧
    endOfF1.deadline = some endOfF1.input.now ∧ endOfF1.input.rst = false ∧ endOfF1.now ≤ endOfF1.input.now ∧
    ∃ t, step endOfF1 = .next t ∧ t.busy = false :=
  ⟨by unfold SeqInv; decide, by unfold NotBeforeIdeal; decide, by unfold OnIdeal; decide, rfl, rfl, rfl, by decide,
    ⟨_, rfl, rfl⟩⟩

/-- A step at the deadline and one just before it. -/
theorem witness_EachDueStepUsesOneMove : SeqInv (afterE1 [poll 249]) ∧
    (afterE1 [poll 250]).now ≤ (afterE1 [poll 250]).input.now ∧ (afterE1 [poll 249]).input.rst = false ∧
    (afterE1 [poll 250]).deadline = some 250 ∧ 250 ≤ (afterE1 [poll 250]).input.now ∧
    (afterE1 [poll 249]).deadline = some 250 ∧ (afterE1 [poll 249]).input.now < 250 := by unfold SeqInv; decide

/-- Polls 35000 µs apart. -/
def pollTimes (count : Nat) : List Nat := (List.range' 1 count).map (35000 * ·)

theorem pollTimes_spaced (start count : Nat) :
    Spaced 35000 (35000 * start) ((List.range' (start + 1) count).map (35000 * ·)) := by
  induction count generalizing start with
  | zero => trivial
  | succ n ih =>
    rw [List.range'_succ, List.map_cons]
    exact ⟨by omega, ih (start + 1)⟩

/-- E1 at time 0 in IDLE and 311 polls. -/
theorem witness_TransmissionRunsToCompletion : ∃ s : State,
    s.fsm = .idle ∧ s.now ≤ 0 ∧ s.env = ⟨false, true, 0x0001010100000001#64, 0⟩ :: polls (pollTimes 311) ∧
    unitValid ((0x0001010100000001#64).extractLsb' 32 8) = true ∧ 1 ≤ ((0x0001010100000001#64).extractLsb' 48 16).toNat ∧
    (pollTimes 311).length = 311 * ((0x0001010100000001#64).extractLsb' 48 16).toNat ∧
    Spaced 35000 0 (pollTimes 311) :=
  ⟨{ State.reset with env := startE1 0 :: polls (pollTimes 311) }, rfl, Nat.le_refl _, rfl, rfl, by decide,
    by simp [pollTimes], pollTimes_spaced 0 311⟩

/-- The last slot, at the last µs of it. -/
theorem witness_IdealWaveformHoldsEachSlot : 309 < (framePattern 1 1 true).length ∧ 249 < 250 := by
  rw [framePattern_F1_length]; decide

/-- The widest distances an 8-bit clock allows, both ways, and a clock of one bit. -/
theorem witness_FiniteClockCompareAgrees :
    (1 ≤ 8 ∧ 377 < 250 + 2 ^ (8 - 1) ∧ 250 < 377 + 2 ^ (8 - 1)) ∧ (1 ≤ 8 ∧ 250 < 377 + 2 ^ (8 - 1) ∧ 377 < 250 + 2 ^ (8 - 1)) ∧
    (1 ≤ 1 ∧ 7 < 7 + 2 ^ (1 - 1) ∧ 7 < 7 + 2 ^ (1 - 1)) := by decide

end Sys2Proof.Tests
end

section
/-! PROOFS of the family 10_state.md: the sequencing tuple, the latched command, the pin, the fault flag and the waveform of
a transmission. First the moves of a step by name, then what each move does to each invariant, then the obligations. -/

namespace Sys2Proof.Machine

/-! ### The moves of a step without reset -/

/-- The state in which an arm of a busy `fsm` runs: the inputs sampled and the re-entry check made (R84). -/
def State.checked (s : State) : State := checkReentry s.input.start s.sampled

/-- What a step without reset can do, one constructor per move (R84, R86, R89 to R92; log 6). Unlike `step_busy_cases`, it
asks no invariant of `s`. -/
inductive Move (s : State) : State → Prop where
  | idle (hf : s.fsm = .idle) (hs : s.input.start = false) : Move s s.sampled
  | accept (hf : s.fsm = .idle) (hs : s.input.start = true) : Move s (s.sampled.accepted s.input.cmd)
  | waitSlot (hf : s.fsm = .slot) : Move s s.checked
  | waitGap (hf : s.fsm = .gap) (hw : s.input.now < s.gapEnd) : Move s s.checked
  | emit (hf : s.fsm = .slot) (k j : BitVec 6) : Move s (s.checked.moveTo k j).emitSlot
  | endFrame (hf : s.fsm = .slot) : Move s s.checked.enterGap
  | finish (hf : s.fsm = .gap) (hd : s.gapEnd ≤ s.input.now) (he : s.repCnt + 1 = s.repsR) :
      Move s s.checked.countRepetition.becomeIdle
  | nextFrame (hf : s.fsm = .gap) (he : s.repCnt + 1 ≠ s.repsR) : Move s s.checked.countRepetition.startFrame
  | stuck (hf : s.fsm = .code3) : Move s s.sampled

/-- A step without reset makes one of the moves. -/
theorem step_move {s t : State} (h : step s = .next t) (hr : s.input.rst = false) : Move s t := by
  obtain ⟨-, ⟨hr', -⟩ | ⟨-, hf, hs, rfl⟩ | ⟨-, hf, hs, rfl⟩ | ⟨-, hf, -, rfl⟩ | ⟨-, hf, -, -, rfl⟩ | ⟨-, hf, -, -, -, rfl⟩ |
    ⟨-, hf, -, -, -, rfl⟩ | ⟨-, hf, hw, rfl⟩ | ⟨-, hf, hd, he, rfl⟩ | ⟨-, hf, -, he, rfl⟩ | ⟨-, hf, rfl⟩⟩ := step_cases h
  · rw [hr] at hr'; cases hr'
  · exact .idle hf hs
  · exact .accept hf hs
  · exact .waitSlot hf
  · exact .emit hf _ _
  · exact .emit hf _ _
  · exact .endFrame hf
  · exact .waitGap hf hw
  · exact .finish hf hd he
  · exact .nextFrame hf he
  · exact .stuck hf

/-- A reset step ends in the reset of the block, whatever else it carries (R84, R122). -/
theorem step_eq_resetBlock {s t : State} (h : step s = .next t) (hr : s.input.rst = true) : t = s.sampled.resetBlock := by
  obtain ⟨-, ⟨-, rfl⟩ | hother⟩ := step_cases h
  · rfl
  · simp [hr] at hother

/-- With `fsm` = 3 an admitted step without reset samples its inputs and does nothing more (R16; log 6). -/
theorem step_code3 {s : State} (hn : s.now ≤ s.input.now) (hr : s.input.rst = false) (hf : s.fsm = .code3) :
    step s = .next s.sampled := by
  rw [step_admitted hn]
  simp [schedule, hr, hf, Sequenced.finish]

/-! ### The checked state, field by field -/

@[simp] theorem State.checked_fsm (s : State) : s.checked.fsm = s.fsm := by simp [State.checked]
@[simp] theorem State.checked_idR (s : State) : s.checked.idR = s.idR := by simp [State.checked]
@[simp] theorem State.checked_unitR (s : State) : s.checked.unitR = s.unitR := by simp [State.checked]
@[simp] theorem State.checked_actR (s : State) : s.checked.actR = s.actR := by simp [State.checked]
@[simp] theorem State.checked_repsR (s : State) : s.checked.repsR = s.repsR := by simp [State.checked]
@[simp] theorem State.checked_repCnt (s : State) : s.checked.repCnt = s.repCnt := by simp [State.checked]
@[simp] theorem State.checked_symIdx (s : State) : s.checked.symIdx = s.symIdx := by simp [State.checked]
@[simp] theorem State.checked_slotIdx (s : State) : s.checked.slotIdx = s.slotIdx := by simp [State.checked]
@[simp] theorem State.checked_tNext (s : State) : s.checked.tNext = s.tNext := by simp [State.checked]
@[simp] theorem State.checked_gapEnd (s : State) : s.checked.gapEnd = s.gapEnd := by simp [State.checked]
@[simp] theorem State.checked_pin (s : State) : s.checked.pin = s.pin := by simp [State.checked]
@[simp] theorem State.checked_faultReentry (s : State) :
    s.checked.faultReentry = (s.faultReentry || s.input.start) := by simp [State.checked]
@[simp] theorem State.checked_w (s : State) : s.checked.w = s.w := by simp [State.checked]
@[simp] theorem State.checked_now (s : State) : s.checked.now = s.input.now := by simp [State.checked]
@[simp] theorem State.checked_busy (s : State) : s.checked.busy = s.busy := by simp [State.checked]
@[simp] theorem State.checked_frameSymAt (s : State) (k : Nat) : s.checked.frameSymAt k = s.frameSymAt k := by
  simp [State.checked]
@[simp] theorem State.checked_currentSym (s : State) : s.checked.currentSym = s.currentSym := by simp [State.checked]
@[simp] theorem State.checked_pattern (s : State) : s.checked.pattern = s.pattern := by simp [State.checked]
@[simp] theorem State.checked_frameSlot (s : State) : s.checked.frameSlot = s.frameSlot := by simp [State.checked]

/-! ### Acceptance and slot emission -/

@[simp] theorem State.accepted_faultReentry (s : State) (cmd : Cmd64) :
    (s.accepted cmd).faultReentry = s.faultReentry := by
  obtain ⟨-, h⟩ | ⟨-, h⟩ := s.accepted_cases cmd <;> simp [h]

/-- In IDLE, `busy` rises with a valid command and with no other (R86). -/
theorem State.accepted_busy {s : State} (hf : s.fsm = .idle) (cmd : Cmd64) :
    (s.accepted cmd).busy = valid (cmd.extractLsb' 32 8) (cmd.extractLsb' 48 16) := by
  obtain ⟨hv, h⟩ | ⟨hv, h⟩ := s.accepted_cases cmd <;> rw [h, hv]
  · simp [State.busy, hf]
  · rfl

/-- Acceptance writes the pin and the log together, or neither. -/
theorem State.accepted_pin_w (s : State) (cmd : Cmd64) :
    ((s.accepted cmd).pin = s.pin ∧ (s.accepted cmd).w = s.w) ∨
      (s.accepted cmd).w = s.w ++ [⟨s.now, (s.accepted cmd).pin⟩] := by
  obtain ⟨-, h⟩ | ⟨-, h⟩ := s.accepted_cases cmd <;> rw [h]
  · exact .inl ⟨rfl, rfl⟩
  · exact .inr rfl

theorem valid_iff {u : BitVec 8} {r : BitVec 16} : valid u r = true ↔ unitValid u = true ∧ 1 ≤ r.toNat := by
  simp [valid]

@[simp] theorem State.emitSlot_busy (s : State) : s.emitSlot.busy = s.busy := by simp [State.busy]

/-- A step without reset writes the pin and the log together, or neither (R96). -/
theorem Move.pin_w {s t : State} (h : Move s t) :
    (t.pin = s.pin ∧ t.w = s.w) ∨ t.w = s.w ++ [⟨s.input.now, t.pin⟩] := by
  cases h with
  | idle => exact .inl ⟨by simp, by simp⟩
  | accept => simpa using s.sampled.accepted_pin_w s.input.cmd
  | waitSlot => exact .inl ⟨by simp, by simp⟩
  | waitGap => exact .inl ⟨by simp, by simp⟩
  | emit _ k j => simpa using (s.checked.moveTo k j).emitSlot_pin_w
  | endFrame => exact .inl ⟨by simp, by simp⟩
  | finish => exact .inl ⟨by simp, by simp⟩
  | nextFrame => exact .inr (by simp)
  | stuck => exact .inl ⟨by simp, by simp⟩

/-! ### The pattern of a frame, slot by slot -/

/-- The slots before symbol `k` of a valid frame are as many as `SlotOffset(k)` (R81). -/
theorem slotsBefore_length {id : BitVec 26} {unit : BitVec 8} (act : Bool) (hu : unitValid unit = true) {k : Nat}
    (hk : k ≤ 33) : ((List.range k).flatMap fun i => patternOf (frameSym id unit act i)).length = slotOffset k := by
  induction k with
  | zero => rfl
  | succ n ih =>
    rw [List.range_succ, List.flatMap_append, List.length_append, ih (by omega),
      slotOffset_succ (id := id) (act := act) hu (by omega)]
    simp

/-- A frame is the slots before symbol `k`, the slots of symbol `k`, and the rest (R82). -/
theorem framePattern_split (id : BitVec 26) (unit : BitVec 8) (act : Bool) {k : Nat} (hk : k ≤ 33) :
    framePattern id unit act = ((List.range k).flatMap fun i => patternOf (frameSym id unit act i)) ++
      (patternOf (frameSym id unit act k) ++
        (List.range' (k + 1) (33 - k)).flatMap fun i => patternOf (frameSym id unit act i)) := by
  have hrange : List.range Config.frameSyms = List.range k ++ (k :: List.range' (k + 1) (33 - k)) := by
    rw [← List.range'_succ, List.range_eq_range', List.range_eq_range', show Config.frameSyms = k + (33 - k + 1) by
      simp only [Config.frameSyms]; omega, ← List.range'_append_1, Nat.zero_add]
  rw [framePattern, frame, List.flatMap_map, hrange, List.flatMap_append, List.flatMap_cons]

/-- A frame of a valid command has 310 slots (R81). -/
theorem framePattern_length {id : BitVec 26} {unit : BitVec 8} (act : Bool) (hu : unitValid unit = true) :
    (framePattern id unit act).length = 310 := by
  rw [framePattern_split id unit act (Nat.le_refl 33), List.length_append, slotsBefore_length act hu (Nat.le_refl 33)]
  simp [slotOffset]

/-- Slot `j` of symbol `k` stands at `SlotOffset(k) + j` of a valid frame (R81). -/
theorem framePattern_slot {id : BitVec 26} {unit : BitVec 8} {act : Bool} {k j : Nat} {y : Symbol}
    (hu : unitValid unit = true) (hk : k ≤ 33) (hy : frameSym id unit act k = some y) (hj : j < symLen (some y)) :
    (framePattern id unit act)[slotOffset k + j]? = some (slotLevel y j) := by
  have hlen := slotsBefore_length (id := id) act hu hk
  rw [framePattern_split id unit act hk, List.getElem?_append_right (by omega), hlen, Nat.add_sub_cancel_left, hy,
    List.getElem?_append_left (by simpa using hj), patternOf_get y j hj]

/-- Slot 0 of a frame is HIGH, whatever the command (R73, R80). -/
theorem framePattern_take_one (id : BitVec 26) (unit : BitVec 8) (act : Bool) :
    (framePattern id unit act).take 1 = [true] := rfl

/-! ### The sequencing invariant -/

theorem seqInv_of_idle {s : State} (hf : s.fsm = .idle) : SeqInv s := by
  simp [SeqInv, State.busy, hf]

theorem seqInv_of_gap {s : State} (hf : s.fsm = .gap) (hu : unitValid s.unitR = true)
    (hc : s.repCnt.toNat < s.repsR.toNat) : SeqInv s :=
  ⟨by simp [hf], fun _ => ⟨hu, by omega, hc⟩, by simp [hf]⟩

theorem seqInv_of_slot {s : State} (hf : s.fsm = .slot) (hu : unitValid s.unitR = true)
    (hc : s.repCnt.toNat < s.repsR.toNat) (hk : s.symIdx.toNat ≤ 33) (hj : s.slotIdx.toNat < symLen s.currentSym) :
    SeqInv s :=
  ⟨by simp [hf], fun _ => ⟨hu, by omega, hc⟩, fun _ => ⟨hk, hj⟩⟩

theorem SeqInv.busy_spec {s : State} (h : SeqInv s) (hb : s.busy = true) :
    unitValid s.unitR = true ∧ s.repCnt.toNat < s.repsR.toNat :=
  have ⟨hu, _, hc⟩ := h.2.1 hb
  ⟨hu, hc⟩

/-- The invariant reads no field that sampling and the re-entry check write. -/
theorem seqInv_checked {s : State} : SeqInv s.checked ↔ SeqInv s := by simp [SeqInv]

/-- An accepted command leaves the invariant: a valid one starts at slot 0 of Sync, an invalid one stays in IDLE (R86). -/
theorem seqInv_accepted {s : State} (hf : s.fsm = .idle) (cmd : Cmd64) : SeqInv (s.accepted cmd) := by
  obtain ⟨-, h⟩ | ⟨hv, h⟩ := s.accepted_cases cmd <;> rw [h]
  · exact seqInv_of_idle (by simp [hf])
  · obtain ⟨hu, hreps⟩ := valid_iff.mp hv
    refine seqInv_of_slot rfl hu hreps (Nat.zero_le _) ?_
    change 0 < symLen (some .sync)
    simp

/-- Every move of a busy block keeps the invariant: each place it moves the tuple to names a slot of the frame (R89, R90). -/
theorem seqInv_step_busy {s t : State} (hI : SeqInv s) (hb : s.busy = true) (hr : s.input.rst = false)
    (h : step s = .next t) : SeqInv t := by
  obtain ⟨hu, hc⟩ := hI.busy_spec hb
  obtain ⟨-, ⟨-, rfl⟩ | ⟨k, j, y, hf, -, -, hk, hy, hj, rfl⟩ | ⟨-, -, -, -, -, rfl⟩ | ⟨-, -, -, rfl⟩ |
    ⟨-, -, he, hlt, rfl⟩⟩ := step_busy_cases hI hb hr h
  · exact seqInv_checked.mpr hI
  · exact seqInv_of_slot (by simp [hf]) (by simpa using hu) (by simpa using hc) (by simpa using hk) (by simpa [hy] using hj)
  · exact seqInv_of_gap rfl (by simpa using hu) (by simpa using hc)
  · exact seqInv_of_idle rfl
  · exact seqInv_of_slot (by simp) (by simpa using hu) (by simp at he ⊢; omega) (by simp) (by simp)

/-- Settles O41. A reset and IDLE leave nothing to show but for an accepted command; a busy block keeps the invariant move
by move. -/
theorem stepKeepsSequencing : Obligations.StepKeepsSequencing := by
  intro s t hI h
  by_cases hr : s.input.rst = true
  · rw [step_eq_resetBlock h hr]
    exact seqInv_of_idle rfl
  have hr' : s.input.rst = false := by simpa using hr
  by_cases hb : s.busy = true
  · exact seqInv_step_busy hI hb hr' h
  have hidle : s.fsm = .idle := by simpa [State.busy] using hb
  cases step_move h hr' with
  | idle => exact seqInv_of_idle (by simpa using hidle)
  | accept => exact seqInv_accepted (by simpa using hidle) _
  | waitSlot hf | waitGap hf | emit hf | endFrame hf | finish hf | nextFrame hf | stuck hf => simp [hidle] at hf

/-! ### The waveform of a transmission -/

theorem waveInv_of_idle {s : State} (hf : s.fsm = .idle) (before : List WriteEvent) : WaveInv before s := by
  simp [WaveInv, hf]

@[simp] theorem levelsOf_append (v w : List WriteEvent) : levelsOf (v ++ w) = levelsOf v ++ levelsOf w :=
  List.map_append

theorem onCadence_single (origin : Nat) (level : Level) : OnCadence origin [⟨origin, level⟩] := by
  rintro (_ | n) e he
  · cases he
    exact ⟨fun _ => rfl, Nat.le_refl _⟩
  · simp at he

/-- An event no earlier than its target extends the cadence of a frame that has begun (R99). -/
theorem OnCadence.append {origin : Nat} {evs : List WriteEvent} {e : WriteEvent} (h : OnCadence origin evs)
    (hpos : 0 < evs.length) (he : origin + Config.slotUs * evs.length ≤ e.time) : OnCadence origin (evs ++ [e]) := by
  intro n e' hn
  by_cases hlt : n < evs.length
  · exact h n e' (by rwa [List.getElem?_append_left hlt] at hn)
  · obtain ⟨rfl, rfl⟩ : n = evs.length ∧ e = e' := by
      rw [List.getElem?_append_right (by omega), List.getElem?_singleton] at hn
      split at hn
      · exact ⟨by omega, Option.some.inj hn⟩
      · cases hn
    exact ⟨fun h0 => by omega, he⟩

/-- One more whole frame. -/
theorem State.frames_succ (n : Nat) (s : State) : s.frames (n + 1) = s.frames n ++ s.pattern := by
  simp [State.frames, List.replicate_succ']

/-- The frames are those of the latched command alone (R83). -/
theorem State.frames_congr {s t : State} (h : t.pattern = s.pattern) (n : Nat) : t.frames n = s.frames n := by
  rw [State.frames, State.frames, h]

/-- The invariant reads no field that sampling and the re-entry check write. -/
theorem waveInv_checked {before : List WriteEvent} {s : State} : WaveInv before s.checked ↔ WaveInv before s := by
  simp [WaveInv, State.frames]

/-- Writing the next slot of the frame, at or after its target, keeps the waveform (R88, R99, R101). -/
theorem WaveInv.emitSymbol {before : List WriteEvent} {s : State} {k j : BitVec 6} {y : Symbol} (hW : WaveInv before s)
    (hf : s.fsm = .slot) (hd : s.tNext ≤ s.now) (hnext : slotOffset k.toNat + j.toNat = s.frameSlot + 1)
    (hlevel : s.pattern[s.frameSlot + 1]? = some (slotLevel y j.toNat)) :
    WaveInv before ((s.moveTo k j).emitSymbol y) := by
  obtain ⟨done, current, origin, hw, hdone, hcur, hlen, hcad, htn⟩ := hW.1 hf
  refine ⟨fun _ => ⟨done, current ++ [⟨s.now, slotLevel y j.toNat⟩], origin, ?_, hdone, ?_, ?_, ?_, ?_⟩, by simp [hf]⟩
  · simp [hw]
  · calc levelsOf (current ++ [⟨s.now, slotLevel y j.toNat⟩])
        = s.pattern.take (s.frameSlot + 1) ++ [slotLevel y j.toNat] := by rw [levelsOf_append, hcur]; rfl
      _ = s.pattern.take (s.frameSlot + 1 + 1) := by rw [List.take_add_one (i := s.frameSlot + 1), hlevel]; rfl
      _ = _ := by simp [hnext]
  · simp [hlen, hnext]
  · exact hcad.append (by omega) (by rw [hlen, ← htn]; exact hd)
  · rw [State.emitSymbol_tNext, State.moveTo_tNext, htn, State.emitSymbol_frameSlot, State.moveTo_frameSlot, hnext]
    ring

/-- After the last slot of a frame the gap begins, and the current frame is whole (R89, R103). -/
theorem WaveInv.enterGap {before : List WriteEvent} {s : State} (hW : WaveInv before s) (hf : s.fsm = .slot)
    (hd : s.tNext ≤ s.now) (hlast : s.frameSlot = 309) (hpat : s.pattern.length = 310) : WaveInv before s.enterGap := by
  obtain ⟨done, current, origin, hw, hdone, hcur, hlen, hcad, htn⟩ := hW.1 hf
  refine ⟨by simp, fun _ => ⟨done, current, origin, hw, hdone, ?_, by rw [hlen, hlast]; rfl, hcad, ?_⟩⟩
  · rw [hcur, State.enterGap_pattern, List.take_of_length_le (by omega)]
  · rw [hlast] at htn
    simp only [State.enterGap_gapEnd, Config.frameSlots]
    omega

/-- In a gap the log has grown by whole frames, the current one among them (R104). -/
theorem WaveInv.wholeFrames {before : List WriteEvent} {s : State} (hW : WaveInv before s) (hf : s.fsm = .gap) :
    ∃ done, s.w = before ++ done ∧ levelsOf done = s.frames (s.repCnt.toNat + 1) := by
  obtain ⟨done, current, -, hw, hdone, hcur, -, -, -⟩ := hW.2 hf
  exact ⟨done ++ current, by rw [hw, List.append_assoc], by rw [levelsOf_append, hdone, hcur, State.frames_succ]⟩

/-- The next frame begins after whole frames, with its slot 0 at its own origin (R87, R90). -/
theorem WaveInv.startFrame {before : List WriteEvent} {s : State} (hW : WaveInv before s) (hf : s.fsm = .gap)
    (hcount : (s.repCnt + 1).toNat = s.repCnt.toNat + 1) : WaveInv before s.countRepetition.startFrame := by
  obtain ⟨done, hw, hdone⟩ := hW.wholeFrames hf
  refine ⟨fun _ => ⟨done, [⟨s.now, true⟩], s.now, ?_, ?_, ?_, ?_, onCadence_single _ _, ?_⟩, by simp⟩
  · simp [hw]
  · rw [State.startFrame_repCnt, State.countRepetition_repCnt, hcount, hdone]
    exact (State.frames_congr (by simp) _).symm
  · rw [State.startFrame_frameSlot, State.startFrame_pattern]
    exact (framePattern_take_one _ _ _).symm
  · simp
  · simp

/-- Settles O48, move by move: a waiting step changes nothing that the waveform reads; a slot's end writes the next slot of
the pattern; a frame's end finds it whole; a gap's end adds a whole frame. -/
theorem stepKeepsTheWaveform : Obligations.StepKeepsTheWaveform := by
  intro before s t hI hW hb hr h
  obtain ⟨hu, -⟩ := hI.busy_spec hb
  have hWc : WaveInv before s.checked := waveInv_checked.mpr hW
  obtain ⟨-, ⟨-, rfl⟩ | ⟨k, j, y, hf, hd, hnext, hk, hy, hj, rfl⟩ | ⟨hf, hd, hlast, -, -, rfl⟩ | ⟨hf, -, he, rfl⟩ |
    ⟨hf, -, he, -, rfl⟩⟩ := step_busy_cases hI hb hr h
  · exact ⟨fun _ => hWc, by simp [hb]⟩
  · have hlevel : s.pattern[s.frameSlot + 1]? = some (slotLevel y j.toNat) := by
      rw [← hnext]; exact framePattern_slot hu hk hy hj
    exact ⟨fun _ => hWc.emitSymbol (by simpa using hf) (by simpa using hd) (by simpa using hnext) (by simpa using hlevel),
      by simp [hb]⟩
  · have hpat : s.pattern.length = 310 := framePattern_length _ hu
    exact ⟨fun _ => hWc.enterGap (by simpa using hf) (by simpa using hd) (by simpa using hlast) (by simpa using hpat),
      by simp⟩
  · obtain ⟨done, hw, hdone⟩ := hW.wholeFrames hf
    exact ⟨by simp, fun _ => ⟨done, by simpa using hw, by rw [hdone, he]⟩⟩
  · exact ⟨fun _ => hWc.startFrame (by simpa using hf) (by simpa using he), by simp⟩

/-! ### The pin, the fault flag, the latched command and busy -/

@[simp] theorem lastLevel_append (w : List WriteEvent) (e : WriteEvent) : lastLevel (w ++ [e]) = e.level := by
  simp [lastLevel]

/-- Settles O43: outside reset the pin and the log are written together or not at all. -/
theorem stepKeepsPinAtLastLevel : Obligations.StepKeepsPinAtLastLevel := by
  intro s t hP h
  by_cases hr : s.input.rst = true
  · rw [step_eq_resetBlock h hr]
    rfl
  obtain ⟨hpin, hw⟩ | hw := (step_move h (by simpa using hr)).pin_w
  · rw [PinInv, hpin, hw]
    exact hP
  · rw [PinInv, hw, lastLevel_append]

/-- Settles O49: the moves of a busy block start from the checked state, and no move writes the flag after that. -/
theorem faultIsSticky : Obligations.FaultIsSticky := by
  intro s t h hr
  cases step_move h hr with
  | idle hf | accept hf | stuck hf => simp [hf]
  | waitSlot hf | waitGap hf | emit hf | endFrame hf | finish hf | nextFrame hf => simp [hf]

/-- Settles O50: acceptance is the one move that latches. -/
theorem latchedCommandIsImmutable : Obligations.LatchedCommandIsImmutable := by
  intro s t h hr hno
  cases step_move h hr with
  | accept hf hs => exact absurd ⟨hf, hs⟩ hno
  | _ => simp

/-- Settles O51: `busy` is `fsm` apart from IDLE, so it can rise in the moves from IDLE alone and fall in the one that ends
the last gap. -/
theorem busyRisesAndFalls : Obligations.BusyRisesAndFalls := by
  intro s t h hr
  cases step_move h hr with
  | idle hf hs => simp [hf, hs, State.busy]
  | accept hf hs =>
    rw [State.accepted_busy (by simpa using hf), valid_iff]
    simp [hf, hs, State.busy]
  | waitSlot hf | emit hf | endFrame hf | stuck hf => simp [hf, State.busy]
  | waitGap hf hw => simp [hf, hw, State.busy]
  | finish hf hd he => simpa [hf, hd, State.busy] using he
  | nextFrame hf he => simpa [hf, State.busy] using fun _ : s.gapEnd ≤ s.input.now => he

/-! ### The stuck state and the state after reset -/

/-- Settles O36: the step is the sampling of its inputs, which writes the model's account of them alone. -/
theorem stuckUntilReset : Obligations.StuckUntilReset := by
  intro s hn hr hf
  rw [step_code3 hn hr hf]
  exact ⟨_, congrArg Host.Outcome.next s.sampled_eq⟩

/-- Settles O40: in IDLE with an empty log and a LOW pin every invariant holds, whatever the unspecified registers hold. -/
theorem resetMeetsTheInvariants : Obligations.ResetMeetsTheInvariants := by
  have hf : State.reset.fsm = .idle := rfl
  have hw : State.reset.w = [] := rfl
  exact ⟨seqInv_of_idle hf, by simp [TimeInv, hw], rfl, by simp [QuietInv, State.reset], by simp [DeadlineInv, hf], rfl,
    waveInv_of_idle hf, hf, rfl, rfl, hw⟩

end Sys2Proof.Machine
end

section
/-! PROOFS of the family 20_memory.md: the pattern memory read at every slot index, and the log of write events in time
order. -/

namespace Sys2Proof.Machine

/-! ### The pattern memory from LEN on -/

/-- The PAT of every symbol fits in its LEN bits (R36). -/
theorem romPat_lt (y : Symbol) : (romRead y).2.toNat < 2 ^ symLen (some y) := by cases y <;> decide

/-- From LEN to the last bit of PAT every slot reads LOW (R36). -/
theorem slotLevel_beyond {y : Symbol} {j : Nat} (hlen : symLen (some y) ≤ j) (hj : j < 43) : slotLevel y j = false := by
  have hlt : (romRead y).2.toNat < 2 ^ j := (romPat_lt y).trans_le (Nat.pow_le_pow_right (by decide) hlen)
  rw [slotLevel, if_pos hj]
  exact Nat.testBit_lt_two_pow hlt

/-- Settles O13: the level is what the ROM reads at `slot_idx`. -/
theorem symbolsCompleteInEveryState : Obligations.SymbolsCompleteInEveryState := fun y s =>
  ⟨slotLevel y s.slotIdx.toNat, exec_symbol y s, patternOf_get y _, slotLevel_beyond⟩

/-! ### The log in time order -/

/-- A later sampled time keeps the order of an unchanged log. -/
theorem TimeInv.of_same_log {s t : State} (hT : TimeInv s) (hn : s.now ≤ t.now) (hw : t.w = s.w) : TimeInv t := by
  obtain ⟨hsorted, hpast⟩ := hT
  exact ⟨hw ▸ hsorted, fun e he => (hpast e (hw ▸ he)).trans hn⟩

/-- An event written at the new sampled time comes last (R45, R96). -/
theorem TimeInv.of_new_event {s t : State} {level : Level} (hT : TimeInv s) (hn : s.now ≤ t.now)
    (hw : t.w = s.w ++ [⟨t.now, level⟩]) : TimeInv t := by
  obtain ⟨hsorted, hpast⟩ := hT
  have hpast' : ∀ e ∈ s.w, e.time ≤ t.now := fun e he => (hpast e he).trans hn
  rw [TimeInv, hw]
  constructor
  · simpa [List.pairwise_append] using ⟨hsorted, hpast'⟩
  · simpa [or_imp, forall_and] using hpast'

/-- Settles O42: reset empties the log; every other move leaves it or adds one event at the time of an admitted step,
which is no earlier than the last (R129). -/
theorem stepKeepsTimeOrder : Obligations.StepKeepsTimeOrder := by
  intro s t hT h
  by_cases hr : s.input.rst = true
  · rw [step_eq_resetBlock h hr]
    simp [TimeInv]
  have hnow : t.now = s.input.now := (step_env_now h).2
  have hn : s.now ≤ t.now := hnow ▸ (step_cases h).1
  obtain ⟨-, hw⟩ | hw := (step_move h (by simpa using hr)).pin_w
  · exact hT.of_same_log hn hw
  · exact hT.of_new_event hn (hnow ▸ hw)

end Sys2Proof.Machine
end

section
/-! PROOFS of the family 30_encoding.md: the decoder and the encoder as inverses of each other, the assembler's word, what
TRANSMIT reads of a command word, and a transmission run to its end by a host that polls. -/

namespace Sys2Proof

/-! ### The decoder is the inverse of the encoder -/

/-- Each field of a command word is read back from its own bits (R52, R66). -/
theorem decodeCmd_encodeCmd (id : BitVec 32) (unit : BitVec 8) (act : Bool) (rsv : BitVec 7) (reps : BitVec 16) :
    decodeCmd (encodeCmd id unit act rsv reps) = .transmit id unit act rsv reps := by
  have hact : (encodeCmd id unit act rsv reps).getLsbD 40 = act := encodeCmd_getLsbD id unit act rsv reps 40
  rw [decodeCmd, hact]
  simp (disch := decide) only [encodeCmd, BitVec.extractLsb'_append_eq_of_le, Nat.reduceSub,
    BitVec.extractLsb'_append_eq_right, BitVec.extractLsb'_eq_self]

theorem decode_encode (i : Instr) : decode (encode i) = i := by
  cases i with
  | transmit id unit act rsv reps => exact decodeCmd_encodeCmd id unit act rsv reps
  | sync | zero | one | pause => rfl

/-- The five fields, put together again, are the word: R52 leaves no bit out. -/
theorem encodeCmd_fields (w : Cmd64) :
    encodeCmd (w.extractLsb' 0 32) (w.extractLsb' 32 8) (w.getLsbD 40) (w.extractLsb' 41 7) (w.extractLsb' 48 16) = w := by
  have hact : BitVec.ofBool (w.getLsbD 40) = w.extractLsb' 40 1 := by
    ext j hj
    obtain rfl : j = 0 := by omega
    simp
  unfold encodeCmd
  rw [hact]
  iterate 4 rw [BitVec.extractLsb'_append_extractLsb'_eq_extractLsb' (by rfl)]
  exact BitVec.extractLsb'_eq_self

theorem encode_decode (c : Code) : encode (decode c) = c := by
  cases c with
  | cmd64 w => exact congrArg Code.cmd64 (encodeCmd_fields w)
  | sym2 c => revert c; decide

/-! ### Bytes and codes -/

/-- `decodeBytes` decodes the code that the bytes present. -/
theorem decodeBytes_ok_iff {bs : List Byte} {i : Instr} :
    decodeBytes bs = .ok i ↔ ∃ c, Code.ofBytes bs = .ok c ∧ decode c = i := by
  unfold decodeBytes
  split <;> simp [*]

/-- `decodeBytes` refuses bytes that present no code, by the same name. -/
theorem decodeBytes_error_iff {bs : List Byte} {e : DecodeError} :
    decodeBytes bs = .error e ↔ Code.ofBytes bs = .error e := by
  unfold decodeBytes
  split <;> simp [*]

/-- A byte string is one byte, a symbol code or a value outside the alphabet; or eight bytes, a command word; or of no
format's width (R65, R72). -/
theorem Code.ofBytes_cases (bs : List Byte) :
    (∃ b, bs = [b] ∧ b.toNat < 4 ∧ Code.ofBytes bs = .ok (.sym2 (b.extractLsb' 0 2))) ∨
    (∃ b, bs = [b] ∧ 4 ≤ b.toNat ∧ Code.ofBytes bs = .error .unrecognisedSymbol) ∨
    (∃ b0 b1 b2 b3 b4 b5 b6 b7, bs = [b0, b1, b2, b3, b4, b5, b6, b7] ∧
      Code.ofBytes bs = .ok (.cmd64 (b7 ++ b6 ++ b5 ++ b4 ++ b3 ++ b2 ++ b1 ++ b0))) ∨
    (bs.length ≠ 1 ∧ bs.length ≠ 8 ∧ Code.ofBytes bs = .error .noSuchWidth) := by
  match bs with
  | [b] =>
    by_cases hb : b.toNat < 4
    · exact .inl ⟨b, rfl, hb, if_pos hb⟩
    · exact .inr (.inl ⟨b, rfl, by omega, if_neg hb⟩)
  | [b0, b1, b2, b3, b4, b5, b6, b7] =>
    exact .inr (.inr (.inl ⟨b0, b1, b2, b3, b4, b5, b6, b7, rfl, rfl⟩))
  | [] | [_, _] | [_, _, _] | [_, _, _, _] | [_, _, _, _, _] | [_, _, _, _, _, _] | [_, _, _, _, _, _, _]
  | _ :: _ :: _ :: _ :: _ :: _ :: _ :: _ :: _ :: _ => exact .inr (.inr (.inr ⟨by simp, by simp, rfl⟩))

/-- Byte k of a word put together from bytes is the k-th of them (R39). -/
theorem Code.toBytes_append (b0 b1 b2 b3 b4 b5 b6 b7 : Byte) :
    (Code.cmd64 (b7 ++ b6 ++ b5 ++ b4 ++ b3 ++ b2 ++ b1 ++ b0)).toBytes = [b0, b1, b2, b3, b4, b5, b6, b7] := by
  simp (disch := decide) only [Code.toBytes, cmdByte, Nat.reduceMul, BitVec.extractLsb'_append_eq_of_le, Nat.reduceSub,
    BitVec.extractLsb'_append_eq_right, BitVec.extractLsb'_eq_self]

/-- A byte below 4 has no bit outside its symbol code. -/
theorem Code.toBytes_symbol {b : Byte} (h : b.toNat < 4) : (Code.sym2 (b.extractLsb' 0 2)).toBytes = [b] := by
  have hb : (b.extractLsb' 0 2).setWidth 8 = b := by
    apply BitVec.eq_of_toNat_eq
    simp
    omega
  rw [Code.toBytes, hb]

/-- The bytes that present a code are its bytes. -/
theorem Code.toBytes_of_ofBytes {bs : List Byte} {c : Code} (h : Code.ofBytes bs = .ok c) : c.toBytes = bs := by
  obtain ⟨b, rfl, hb, hc⟩ | ⟨b, rfl, -, hc⟩ | ⟨b0, b1, b2, b3, b4, b5, b6, b7, rfl, hc⟩ | ⟨-, -, hc⟩ := Code.ofBytes_cases bs <;>
    rw [hc] at h
  · cases h
    exact Code.toBytes_symbol hb
  · cases h
  · cases h
    exact Code.toBytes_append b0 b1 b2 b3 b4 b5 b6 b7
  · cases h

/-- Settles O1: an encoding's bytes present the encoding, and decoding inverts it. -/
theorem decodeOfEncodedBytes : Obligations.DecodeOfEncodedBytes := fun i =>
  decodeBytes_ok_iff.mpr ⟨encode i, Code.ofBytes_toBytes _, decode_encode i⟩

/-- Settles O2: the code that the bytes present is the encoding of what it decodes to. -/
theorem encodeOfDecodedBytes : Obligations.EncodeOfDecodedBytes := by
  intro bs i h
  obtain ⟨c, hc, rfl⟩ := decodeBytes_ok_iff.mp h
  rw [encode_decode]
  exact Code.toBytes_of_ofBytes hc

/-- Settles O3, kind of byte string by kind. -/
theorem rejectedBytes : Obligations.RejectedBytes := by
  simp only [Obligations.RejectedBytes, decodeBytes_error_iff, ← forall_and]
  intro bs
  obtain ⟨b, rfl, hb, hc⟩ | ⟨b, rfl, hb, hc⟩ | ⟨b0, b1, b2, b3, b4, b5, b6, b7, rfl, hc⟩ | ⟨h1, h8, hc⟩ :=
    Code.ofBytes_cases bs <;> rw [hc]
  · simpa using hb
  · simpa using hb
  · simp
  · have hne : ∀ b : Byte, bs ≠ [b] := fun b hb => h1 (by rw [hb]; rfl)
    simp [h1, h8, hne]

/-- Settles O4: eight closed codes, evaluated. -/
theorem decodedSampleWords : Obligations.DecodedSampleWords := by
  unfold Obligations.DecodedSampleWords
  decide

/-! ### The assembler's word -/

/-- Each bit of R59's formula is a bit of the operand whose term reaches it; a term of an operand in range does not reach
into the next one's place. -/
theorem encodeCmd_eq_formulaWord {id unit reps : Nat} (act : Bool) (hid : id < 2 ^ 32) (hunit : unit < 2 ^ 8) :
    encodeCmd (BitVec.ofNat 32 id) (BitVec.ofNat 8 unit) act 0 (BitVec.ofNat 16 reps) = Asm.formulaWord id unit act reps := by
  have beyond {x n : Nat} (hx : x < 2 ^ n) (i : Nat) (hi : n ≤ i) : x.testBit i = false :=
    Nat.testBit_lt_two_pow (hx.trans_le (Nat.pow_le_pow_right (by decide) hi))
  have hact : act.toNat < 2 ^ 1 := by cases act <;> decide
  apply BitVec.eq_of_getLsbD_eq
  intro j hj
  rw [encodeCmd_getLsbD]
  simp only [Asm.formulaWord, BitVec.getLsbD_or, BitVec.getLsbD_shiftLeft, BitVec.getLsbD_ofNat, hj, decide_true, Bool.true_and]
  by_cases h1 : j < 32
  · simp [h1, show j < 40 by omega, show j < 48 by omega]
  by_cases h2 : j < 40
  · simp [h1, h2, beyond hid j (by omega), show j < 48 by omega, show j - 32 < 8 by omega, show j - 32 < 64 by omega]
  by_cases h3 : j < 41
  · obtain rfl : j = 40 := by omega
    cases act <;> simp [beyond hid, beyond hunit]
  by_cases h4 : j < 48
  · simp [h1, h2, h3, h4, beyond hid j (by omega), beyond hunit (j - 32) (by omega), beyond hact (j - 40) (by omega)]
  · simp [h1, h2, h3, h4, beyond hid j (by omega), beyond hunit (j - 32) (by omega), beyond hact (j - 40) (by omega),
      show j - 48 < 16 by omega, show j - 48 < 64 by omega]

/-- In range, the assembler writes the operands into their fields and 0 into `RSV` (R59). -/
theorem Asm.assemble_transmit {id unit reps : Nat} (act : Bool) (h : id < 2 ^ 32 ∧ unit < 2 ^ 8 ∧ reps < 2 ^ 16) :
    (Asm.transmit id unit act reps).assemble =
      some (.transmit (BitVec.ofNat 32 id) (BitVec.ofNat 8 unit) act 0 (BitVec.ofNat 16 reps)) :=
  if_pos (by simpa [Asm.wellFormed, and_assoc] using h)

/-- Out of range there is no instruction (R59). -/
theorem Asm.assemble_transmit_none {id unit reps : Nat} (act : Bool) (h : ¬ (id < 2 ^ 32 ∧ unit < 2 ^ 8 ∧ reps < 2 ^ 16)) :
    (Asm.transmit id unit act reps).assemble = none :=
  if_neg (by simpa [Asm.wellFormed, and_assoc] using h)

/-- The three-operand form is the four-operand form with the default count, which is in range (R59). -/
theorem Asm.assemble_transmitDefault (id unit : Nat) (act : Bool) :
    (Asm.transmitDefault id unit act).assemble = (Asm.transmit id unit act Config.defaultReps).assemble := by
  have hwf : (Asm.transmitDefault id unit act).wellFormed = (Asm.transmit id unit act Config.defaultReps).wellFormed := by
    simp [Asm.wellFormed, Config.defaultReps]
  rw [Asm.assemble, Asm.assemble, hwf]
  rfl

/-- Settles O5. -/
theorem assemblerWord : Obligations.AssemblerWord := by
  intro id unit act reps
  refine ⟨fun hid hunit hreps => ⟨_, Asm.assemble_transmit act ⟨hid, hunit, hreps⟩, rfl, ?_⟩,
    Asm.assemble_transmit_none act, Asm.assemble_transmitDefault id unit act⟩
  exact congrArg Code.cmd64 (encodeCmd_eq_formulaWord act hid hunit)

namespace Machine

/-! ### What TRANSMIT reads of a command word -/

/-- TRANSMIT reads the low 26 bits of `ID` and nothing of `RSV` (R53, R57). -/
theorem execTransmit_congr {id id' : BitVec 32} (h : latchedId id = latchedId id') (unit : BitVec 8) (act : Bool)
    (rsv rsv' : BitVec 7) (reps : BitVec 16) (s : State) :
    execTransmit id unit act rsv reps s = execTransmit id' unit act rsv' reps s := by
  have hlatch : s.latch id unit act reps = s.latch id' unit act reps := by simp [State.latch, h]
  simp only [execTransmit, hlatch]

/-- The latched id is `cmd[25:0]` (R66). -/
theorem latchedId_extractLsb' (cmd : Cmd64) : latchedId (cmd.extractLsb' 0 32) = cmd.extractLsb' 0 26 := by
  apply BitVec.eq_of_getLsbD_eq
  intro j hj
  simp [latchedId, hj]

/-- Words that agree at the bits of a slice have the same slice. -/
theorem extractLsb'_congr {a b : Cmd64} {start len : Nat}
    (h : ∀ j, j < len → a.getLsbD (start + j) = b.getLsbD (start + j)) :
    a.extractLsb' start len = b.extractLsb' start len := by
  apply BitVec.eq_of_getLsbD_eq
  intro j hj
  rw [BitVec.getLsbD_extractLsb', BitVec.getLsbD_extractLsb', h j hj]

/-- Settles O25: the words agree in every slice that TRANSMIT reads. -/
theorem ignoredCommandBits : Obligations.IgnoredCommandBits := by
  intro a b s hab
  have hid : a.extractLsb' 0 26 = b.extractLsb' 0 26 :=
    extractLsb'_congr fun j hj => hab (0 + j) (by omega) (by omega) (by omega)
  have hunit : a.extractLsb' 32 8 = b.extractLsb' 32 8 :=
    extractLsb'_congr fun j hj => hab (32 + j) (by omega) (by omega) (by omega)
  have hact : a.getLsbD 40 = b.getLsbD 40 := hab 40 (by omega) (by omega) (by omega)
  have hreps : a.extractLsb' 48 16 = b.extractLsb' 48 16 :=
    extractLsb'_congr fun j hj => hab (48 + j) (by omega) (by omega) (by omega)
  simp only [decode, decodeCmd, exec, hunit, hact, hreps]
  exact execTransmit_congr (by rw [latchedId_extractLsb', latchedId_extractLsb', hid]) _ _ _ _ _ _

/-- A command word executed in IDLE is accepted (R86). -/
theorem exec_decode_cmd_idle {s : State} (hf : s.fsm = .idle) (cmd : Cmd64) :
    exec (decode (.cmd64 cmd)) s = .next (s.accepted cmd) :=
  execTransmit_idle hf _ _ _ (cmd.extractLsb' 41 7) _

/-- The step that presents a command in IDLE accepts it (R86). -/
theorem step_accept {s : State} (hn : s.now ≤ s.input.now) (hr : s.input.rst = false) (hf : s.fsm = .idle)
    (hs : s.input.start = true) : step s = .next (s.sampled.accepted s.input.cmd) := by
  rw [step_admitted hn, ← exec_decode_cmd_idle (by simpa using hf)]
  simp [schedule, hr, hf, hs, Sequenced.finish]

/-- Acceptance latches the command, valid or not (R66, R86). -/
theorem State.accepted_latch (s : State) (cmd : Cmd64) :
    (s.accepted cmd).idR = cmd.extractLsb' 0 26 ∧ (s.accepted cmd).unitR = cmd.extractLsb' 32 8 ∧
      (s.accepted cmd).actR = cmd.getLsbD 40 ∧ (s.accepted cmd).repsR = cmd.extractLsb' 48 16 := by
  obtain ⟨-, h⟩ | ⟨-, h⟩ := s.accepted_cases cmd <;> rw [h] <;> exact ⟨latchedId_extractLsb' cmd, rfl, rfl, rfl⟩

/-- Settles O26: each latched register is a slice, read bit by bit. -/
theorem latchedSlices : Obligations.LatchedSlices := by
  intro cmd s hf
  obtain ⟨hid, hunit, hact, hreps⟩ := s.accepted_latch cmd
  refine ⟨_, exec_decode_cmd_idle hf cmd, fun j hj => ?_, fun j hj => ?_, hact, fun j hj => ?_⟩
  · simp [hid, hj]
  · simp [hunit, hj]
  · simp [hreps, hj]

/-! ### Nothing stops an admitted step -/

theorem exec_next (i : Instr) (s : State) : ∃ t, exec i s = .next t := by
  cases i with
  | transmit id unit act rsv reps =>
    cases hf : s.fsm with
    | idle => exact ⟨_, execTransmit_idle hf id unit act rsv reps⟩
    | slot | gap | code3 => simp [exec, execTransmit, hf]
  | sync | zero | one | pause => exact ⟨_, rfl⟩

theorem Sequenced.finish_next (q : Sequenced) : ∃ t, q.finish = .next t := by
  cases q with
  | settled t => exact ⟨t, rfl⟩
  | run c t => exact exec_next (decode c) t

theorem step_next {s : State} (h : s.now ≤ s.input.now) : ∃ t, step s = .next t := by
  rw [step_admitted h]
  exact Sequenced.finish_next _

/-- Settles O28. -/
theorem admittedStepsComplete : Obligations.AdmittedStepsComplete := ⟨exec_next, fun _ => step_next⟩

/-! ### One step of a transmission: the pin, the deadline, the moves left -/

/-- The place that the tuple names lies inside the frame (R81). -/
theorem SeqInv.frameSlot_lt {s : State} (h : SeqInv s) (hf : s.fsm = .slot) : s.frameSlot < 310 := by
  obtain ⟨hk, hj⟩ := h.2.2 hf
  obtain ⟨y, hy, hlen⟩ := h.currentSym hf
  rw [hy, hlen] at hj
  rw [State.frameSlot, slotOffset]
  split_ifs at hj ⊢ <;> omega

/-- A transmission in progress waits for a deadline. -/
theorem SeqInv.exists_deadline {s : State} (h : SeqInv s) (hb : s.busy = true) : ∃ d, s.deadline = some d := by
  cases hf : s.fsm with
  | idle => simp [State.busy, hf] at hb
  | slot => exact ⟨s.tNext, by simp [State.deadline, hf]⟩
  | gap => exact ⟨s.gapEnd, by simp [State.deadline, hf]⟩
  | code3 => exact absurd hf h.1

theorem SeqInv.movesLeft_pos {s : State} (h : SeqInv s) (hb : s.busy = true) : 0 < s.movesLeft := by
  cases hf : s.fsm with
  | idle => simp [State.busy, hf] at hb
  | slot | gap => simp [State.movesLeft, hf]
  | code3 => exact absurd hf h.1

theorem movesLeft_slot {s : State} (hf : s.fsm = .slot) :
    s.movesLeft = 311 * (s.repsR.toNat - s.repCnt.toNat - 1) + (310 - s.frameSlot) + 1 := by
  simp [State.movesLeft, hf, Config.frameSlots]

theorem movesLeft_gap {s : State} (hf : s.fsm = .gap) :
    s.movesLeft = 311 * (s.repsR.toNat - s.repCnt.toNat - 1) + 1 := by
  simp [State.movesLeft, hf]

/-- A step at or after the deadline uses up one of the moves left (R89, R90). -/
theorem movesLeft_step_due {s t : State} {d : Nat} (hI : SeqInv s) (hd : s.deadline = some d) (hdue : d ≤ s.input.now)
    (hb : s.busy = true) (hr : s.input.rst = false) (h : step s = .next t) : t.movesLeft + 1 = s.movesLeft := by
  obtain ⟨-, ⟨hwait, -⟩ | ⟨k, j, y, hf, -, hnext, -, -, -, rfl⟩ | ⟨hf, -, hlast, -, -, rfl⟩ | ⟨hf, -, he, rfl⟩ |
    ⟨hf, -, he, hlt, rfl⟩⟩ := step_busy_cases hI hb hr h
  · obtain ⟨hf, hw⟩ | ⟨hf, hw⟩ := hwait <;> simp [State.deadline, hf] at hd <;> omega
  · have hlt := (seqInv_step_busy hI hb hr h).frameSlot_lt (by simp [hf])
    rw [movesLeft_slot hf, movesLeft_slot (by simp [hf])]
    simp [hnext] at hlt ⊢
    omega
  · rw [movesLeft_slot hf, movesLeft_gap (by simp), hlast]
    simp
  · rw [movesLeft_gap hf, he]
    simp [State.movesLeft]
  · rw [movesLeft_gap hf, movesLeft_slot (by simp)]
    simp at he ⊢
    omega

/-- Every move of a busy block keeps the pin at the level of its place: a gap begins at the last slot of Pause, which is
LOW (R73, R90). -/
theorem quietInv_step_busy {s t : State} (hI : SeqInv s) (hQ : QuietInv s) (hb : s.busy = true) (hr : s.input.rst = false)
    (h : step s = .next t) : QuietInv t := by
  obtain ⟨hlow, hslot⟩ := hQ
  obtain ⟨-, ⟨-, rfl⟩ | ⟨k, j, y, hf, -, -, -, hy, -, rfl⟩ | ⟨hf, -, -, hsym, hidx, rfl⟩ | ⟨hf, -, -, rfl⟩ |
    ⟨-, -, -, -, rfl⟩⟩ := step_busy_cases hI hb hr h
  · exact ⟨by simpa using hlow, by simpa using hslot⟩
  · exact ⟨by simp [hf], fun _ => ⟨y, by simpa using hy, by simp⟩⟩
  · obtain ⟨y, hy, hpin⟩ := hslot hf
    obtain rfl : Symbol.pause = y := Option.some.inj (hsym.symm.trans hy)
    have hend : s.pin = false := by rw [hpin, hidx]; exact slotLevel_last .pause
    exact ⟨by simpa using hend, by simp⟩
  · exact ⟨by simpa using hlow (.inr hf), by simp⟩
  · exact ⟨by simp, fun _ => ⟨.sync, by simp, by simp [slotLevel_first]⟩⟩

/-- Every move of a busy block keeps the deadline within a slot, or the gap, of the step (R99, R103). -/
theorem deadlineInv_step_busy {s t : State} (hI : SeqInv s) (hD : DeadlineInv s) (hb : s.busy = true)
    (hr : s.input.rst = false) (h : step s = .next t) : DeadlineInv t := by
  obtain ⟨hslot, hgap⟩ := hD
  obtain ⟨hn, ⟨-, rfl⟩ | ⟨k, j, y, hf, hd, -, -, -, -, rfl⟩ | ⟨-, -, -, -, -, rfl⟩ | ⟨-, -, -, rfl⟩ |
    ⟨-, -, -, -, rfl⟩⟩ := step_busy_cases hI hb hr h
  · change DeadlineInv s.checked
    rw [DeadlineInv, State.checked_fsm, State.checked_tNext, State.checked_gapEnd, State.checked_now]
    exact ⟨fun hf => (hslot hf).trans (by omega), fun hf => (hgap hf).trans (by omega)⟩
  · exact ⟨fun _ => by simpa using hd, by simp [hf]⟩
  · exact ⟨by simp, fun _ => by simp⟩
  · exact ⟨by simp, by simp⟩
  · exact ⟨fun _ => by simp, by simp⟩

theorem DeadlineInv.deadline_le {s : State} {d : Nat} (h : DeadlineInv s) (hd : s.deadline = some d) :
    d ≤ s.now + Config.gapUs := by
  obtain ⟨hslot, hgap⟩ := h
  cases hf : s.fsm with
  | idle | code3 => simp [State.deadline, hf] at hd
  | slot =>
    obtain rfl : s.tNext = d := by simpa [State.deadline, hf] using hd
    exact (hslot hf).trans (Nat.add_le_add_left (by decide) _)
  | gap =>
    obtain rfl : s.gapEnd = d := by simpa [State.deadline, hf] using hd
    exact hgap hf

/-! ### A transmission polled to its end -/

/-- What holds after each step of a transmission whose log was `before` at acceptance and whose accepting step left `a`:
the invariants, and the latched command and the fault flag as they were in `a`. -/
structure Transmitting (before : List WriteEvent) (a s : State) : Prop where
  seq : SeqInv s
  wave : WaveInv before s
  quiet : QuietInv s
  near : DeadlineInv s
  fault : s.faultReentry = a.faultReentry
  pattern : s.pattern = a.pattern
  reps : s.repsR = a.repsR

/-- What holds in the state `t` in which that transmission has ended. -/
structure Transmitted (before : List WriteEvent) (a t : State) : Prop where
  idle : t.fsm = .idle
  low : t.pin = false
  fault : t.faultReentry = a.faultReentry
  frames : ∃ done, t.w = before ++ done ∧ levelsOf done = a.frames a.repsR.toNat

/-- Frame 0 of a valid command begins the transmission (R86, R87). -/
theorem transmitting_startFrame {before : List WriteEvent} {s : State} (hw : s.w = before) (hu : unitValid s.unitR = true)
    (hreps : 0 < s.repsR.toNat) (hcount : s.repCnt = 0) : Transmitting before s.startFrame s.startFrame where
  seq := seqInv_of_slot (by simp) (by simpa using hu) (by simpa [hcount] using hreps) (by simp) (by simp)
  wave := by
    refine ⟨fun _ => ⟨[], [⟨s.now, true⟩], s.now, ?_, ?_, ?_, ?_, onCadence_single _ _, ?_⟩, by simp⟩
    · simp [hw]
    · simp [hcount, State.frames, levelsOf]
    · rw [State.startFrame_frameSlot]
      exact (framePattern_take_one _ _ _).symm
    · simp
    · simp
  quiet := ⟨by simp, fun _ => ⟨.sync, by simp, by simp [slotLevel_first]⟩⟩
  near := ⟨fun _ => by simp, by simp⟩
  fault := rfl
  pattern := rfl
  reps := rfl

/-- A valid command in IDLE begins a transmission with all of its moves left (R86). -/
theorem transmitting_accepted {s : State} {cmd : Cmd64}
    (hv : valid (cmd.extractLsb' 32 8) (cmd.extractLsb' 48 16) = true) :
    Transmitting s.w (s.accepted cmd) (s.accepted cmd) ∧ (s.accepted cmd).busy = true ∧
      (s.accepted cmd).movesLeft = 311 * (cmd.extractLsb' 48 16).toNat := by
  obtain ⟨hu, hreps⟩ := valid_iff.mp hv
  rw [State.accepted, if_pos hv]
  refine ⟨transmitting_startFrame rfl hu hreps rfl, by simp, ?_⟩
  rw [movesLeft_slot (by simp)]
  simp at hreps ⊢
  omega

/-- A step without reset and without `start` keeps the fault flag. -/
theorem faultReentry_step {s t : State} (hr : s.input.rst = false) (hs : s.input.start = false) (h : step s = .next t) :
    t.faultReentry = s.faultReentry := by
  have hiff := faultIsSticky s t h hr
  rw [Bool.eq_iff_iff]
  simpa [hs] using hiff

/-- A step without reset and without `start` keeps the transmission going or ends it. -/
theorem Transmitting.step_poll {before : List WriteEvent} {a s t : State} (hT : Transmitting before a s)
    (hb : s.busy = true) (hr : s.input.rst = false) (hs : s.input.start = false) (h : step s = .next t) :
    (t.busy = true → Transmitting before a t) ∧ (t.busy = false → Transmitted before a t) := by
  obtain ⟨hid, hunit, hact, hreps⟩ := latchedCommandIsImmutable s t h hr (by simp [hs])
  obtain ⟨hwave, hend⟩ := stepKeepsTheWaveform before s t hT.seq hT.wave hb hr h
  have hquiet := quietInv_step_busy hT.seq hT.quiet hb hr h
  have hfault : t.faultReentry = a.faultReentry := (faultReentry_step hr hs h).trans hT.fault
  have hpattern : t.pattern = a.pattern := by rw [← hT.pattern, State.pattern, hid, hunit, hact]; rfl
  constructor
  · intro hb'
    exact ⟨seqInv_step_busy hT.seq hb hr h, hwave hb', hquiet, deadlineInv_step_busy hT.seq hT.near hb hr h, hfault,
      hpattern, hreps.trans hT.reps⟩
  · intro hb'
    obtain ⟨done, hw, hdone⟩ := hend hb'
    have hidle : t.fsm = .idle := by simpa [State.busy] using hb'
    refine ⟨hidle, hquiet.1 (.inl hidle), hfault, done, hw, ?_⟩
    rw [hdone, hT.reps, State.frames_congr hT.pattern.symm]

/-- Polls as many as the moves left, each a gap's length after the one before it, run the transmission to its end. -/
theorem Transmitting.run_polls {before : List WriteEvent} {a : State} (ts : List Nat) {s : State}
    (hT : Transmitting before a s) (hb : s.busy = true) (henv : s.env = polls ts) (hlen : ts.length = s.movesLeft)
    (hsp : Spaced Config.gapUs s.now ts) :
    ∃ t, Host.Core.run core ts.length s = .next t ∧ Transmitted before a t := by
  induction ts generalizing s with
  | nil => exact absurd hlen.symm (hT.seq.movesLeft_pos hb).ne'
  | cons n ts ih =>
    obtain ⟨hn, hrest⟩ := hsp
    have hin : s.input = ⟨false, false, 0, n⟩ := State.input_of_env henv
    have hr : s.input.rst = false := by rw [hin]
    have hs : s.input.start = false := by rw [hin]
    have hnow : s.input.now = n := by rw [hin]
    obtain ⟨t, h⟩ := step_next (s := s) (by omega)
    obtain ⟨henv', hnow'⟩ := step_env_now h
    obtain ⟨d, hd⟩ := hT.seq.exists_deadline hb
    have hdue : d ≤ s.input.now := (hT.near.deadline_le hd).trans (by omega)
    have hmoves := movesLeft_step_due hT.seq hd hdue hb hr h
    have hlen' : ts.length = t.movesLeft := by rw [List.length_cons] at hlen; omega
    obtain ⟨hgo, hstop⟩ := hT.step_poll hb hr hs h
    rw [List.length_cons, core_run_succ h]
    cases hb' : t.busy with
    | true =>
      exact ih (hgo hb') hb' (by rw [henv', henv]; rfl) hlen' (by rw [hnow', hnow]; exact hrest)
    | false =>
      have hend := hstop hb'
      have h0 : ts.length = 0 := by rw [hlen', State.movesLeft, hend.idle]
      exact ⟨t, by rw [h0]; rfl, hend⟩

/-- Settles O56: the first step accepts the command, and the polls run it to its end. -/
theorem transmissionRunsToCompletion : Obligations.TransmissionRunsToCompletion := by
  intro s cmd n ts hf hn henv hu hreps hlen hsp
  have hin : s.input = ⟨false, true, cmd, n⟩ := State.input_of_env henv
  have h : step s = .next (s.sampled.accepted cmd) := by
    have hacc := step_accept (s := s) (by rw [hin]; exact hn) (by rw [hin]) hf (by rw [hin])
    rwa [hin] at hacc
  obtain ⟨henv', hnow'⟩ := step_env_now h
  obtain ⟨hT, hb, hmoves⟩ := transmitting_accepted (s := s.sampled) (valid_iff.mpr ⟨hu, hreps⟩)
  obtain ⟨t, hrun, hend⟩ := hT.run_polls ts hb (by rw [henv', henv]; rfl) (by rw [hlen, hmoves])
    (by rw [hnow', hin]; exact hsp)
  obtain ⟨done, hw, hdone⟩ := hend.frames
  obtain ⟨hid, hunit, hact, hrepsR⟩ := s.sampled.accepted_latch cmd
  refine ⟨t, done, (core_run_succ h).trans hrun, hend.idle, hend.low, by simpa using hend.fault, by simpa using hw, ?_⟩
  rw [hdone, State.frames, State.pattern, hid, hunit, hact, hrepsR]

end Machine
end Sys2Proof
end

section
/-! PROOFS of the family 40_symbol_encoder.md: the four patterns and where the frame puts them, the pin at rest outside a
frame, and pulses one slot long on the log. -/

namespace Sys2Proof.Machine

/-! ### The four patterns -/

/-- The two symbols of a data bit, slot by slot (R69, R70). -/
theorem patternOf_zero : patternOf (some .zero) = [true, false, false, false, false, false, true, false] := rfl
theorem patternOf_one : patternOf (some .one) = [true, false, true, false, false, false, false, false] := rfl

/-- The two symbols that frame a frame: one HIGH slot, then LOW to the end (R68, R71). -/
theorem patternOf_sync : patternOf (some .sync) = true :: List.replicate 10 false := rfl
theorem patternOf_pause : patternOf (some .pause) = true :: List.replicate 42 false := rfl

theorem symLen_pos (y : Symbol) : 0 < symLen (some y) := by cases y <;> simp

/-- A HIGH slot is followed, within its symbol, by a LOW one (R73 c). -/
theorem slotLevel_after_high {y : Symbol} {j : Nat} (hj : j < symLen (some y)) (hhigh : slotLevel y j = true) :
    j + 1 < symLen (some y) ∧ slotLevel y (j + 1) = false := by
  revert j
  cases y <;> decide

theorem patternOf_head? (y : Symbol) : (patternOf (some y)).head? = some true := by
  rw [List.head?_eq_getElem?, patternOf_get y 0 (symLen_pos y), slotLevel_first]

theorem patternOf_getLast? (y : Symbol) : (patternOf (some y)).getLast? = some false := by
  have hpos := symLen_pos y
  rw [List.getLast?_eq_getElem?, patternOf_length, patternOf_get y _ (by omega), slotLevel_last]

theorem patternOf_after_high {y : Symbol} {j : Nat} (h : (patternOf (some y))[j]? = some true) :
    (patternOf (some y))[j + 1]? = some false := by
  have hj : j < symLen (some y) := by
    rw [← patternOf_length]
    exact (List.getElem?_eq_some_iff.mp h).1
  rw [patternOf_get y j hj] at h
  obtain ⟨hj', hlow⟩ := slotLevel_after_high hj (Option.some.inj h)
  rw [patternOf_get y _ hj', hlow]

/-- Zero and One differ in the slots of their second pulses, 6 and 2, alone (R73 e). -/
theorem patternOf_zero_ne_one_iff (j : Nat) :
    (patternOf (some .zero))[j]? ≠ (patternOf (some .one))[j]? ↔ j = 2 ∨ j = 6 := by
  by_cases hj : j < 8
  · revert j
    decide
  · rw [List.getElem?_eq_none (by simpa using hj), List.getElem?_eq_none (by simpa using hj)]
    simp only [ne_eq, not_true_eq_false, false_iff]
    omega

/-- Settles O14: what holds of every pattern is read off its slots; only the pulses are counted pattern by pattern. -/
theorem patternProperties : Obligations.PatternProperties :=
  ⟨fun y => ⟨patternOf_head? y, patternOf_getLast? y, fun _ => patternOf_after_high, by cases y <;> rfl⟩,
    patternOf_zero_ne_one_iff, rfl⟩

/-! ### Where a frame has them -/

/-- Every frame starts with the slots of Sync (R68, R80). -/
theorem framePattern_take_sync (id : BitVec 26) (unit : BitVec 8) (act : Bool) :
    (framePattern id unit act).take 11 = patternOf (some .sync) := by
  rw [framePattern_split id unit act (Nat.zero_le 33), frameSym_zero, List.range_zero, List.flatMap_nil, List.nil_append]
  exact List.take_left' (by simp)

/-- Every frame of a valid unit ends with the slots of Pause, from slot 267 on (R71, R80). -/
theorem framePattern_drop_pause (id : BitVec 26) {unit : BitVec 8} (act : Bool) (hu : unitValid unit = true) :
    (framePattern id unit act).drop 267 = patternOf (some .pause) := by
  have hlen : ((List.range 33).flatMap fun i => patternOf (frameSym id unit act i)).length = 267 :=
    slotsBefore_length act hu (Nat.le_refl 33)
  rw [framePattern_split id unit act (Nat.le_refl 33), frameSym_last, List.drop_left' hlen]
  simp

/-- The mask of data symbol k has bit 26 - k alone (R75). -/
theorem dataMask_eq_twoPow {k : Nat} (h1 : 1 ≤ k) (h26 : k ≤ 26) : 0x2000000#26 >>> (k - 1) = BitVec.twoPow 26 (26 - k) := by
  rw [show 0x2000000#26 = BitVec.twoPow 26 25 from rfl]
  apply BitVec.eq_of_getLsbD_eq
  intro j hj
  simp only [BitVec.getLsbD_ushiftRight, BitVec.getLsbD_twoPow]
  rw [Bool.eq_iff_iff]
  simp
  omega

theorem twoPow_ne_zero {w i : Nat} (hi : i < w) : BitVec.twoPow w i ≠ 0#w := by
  intro h0
  simpa [hi] using congrArg (·.getLsbD i) h0

/-- Data symbol k is One where bit 26 - k of the id is 1, else Zero (R75). -/
theorem dataSym_eq (id : BitVec 26) {k : Nat} (h1 : 1 ≤ k) (h26 : k ≤ 26) :
    dataSym id k = if id.getLsbD (26 - k) then .one else .zero := by
  rw [dataSym, dataMask_eq_twoPow h1 h26, BitVec.and_twoPow]
  cases id.getLsbD (26 - k) with
  | true => exact if_pos (twoPow_ne_zero (by omega))
  | false => rfl

theorem frameSym_data (id : BitVec 26) (unit : BitVec 8) (act : Bool) {k : Nat} (h1 : 1 ≤ k) (h26 : k ≤ 26) :
    frameSym id unit act k = some (dataSym id k) := by
  rw [frameSym, if_neg (by omega), if_pos h26]

/-- Settles O8: its code and ROM word are closed facts, and every frame starts with it. -/
theorem syncRule : Obligations.SyncRule :=
  ⟨rfl, rfl, rfl, patternOf_sync, rfl, framePattern_take_sync⟩

/-- Settles O9: at data symbol k the frame has the symbol of the id bit, here 0. -/
theorem zeroRule : Obligations.ZeroRule := by
  refine ⟨rfl, rfl, rfl, patternOf_zero, rfl, fun id unit act k h1 h26 hbit => ?_⟩
  rw [frameSym_data id unit act h1 h26, dataSym_eq id h1 h26, hbit]
  exact patternOf_zero

/-- Settles O10: at data symbol k the frame has the symbol of the id bit, here 1. -/
theorem oneRule : Obligations.OneRule := by
  refine ⟨rfl, rfl, rfl, patternOf_one, rfl, fun id unit act k h1 h26 hbit => ?_⟩
  rw [frameSym_data id unit act h1 h26, dataSym_eq id h1 h26, hbit]
  exact patternOf_one

/-- Settles O11: PAT has 43 bits, so no pattern is longer, and every frame ends with it. -/
theorem pauseRule : Obligations.PauseRule :=
  ⟨rfl, rfl, rfl, patternOf_pause, rfl, symLen_le, fun id _ act => framePattern_drop_pause id act⟩

/-! ### The pin at rest -/

/-- In IDLE a step without reset samples its inputs, and accepts a command if one is presented (R84, R86). -/
theorem step_idle_cases {s t : State} (hf : s.fsm = .idle) (hr : s.input.rst = false) (h : step s = .next t) :
    t = s.sampled ∨ t = s.sampled.accepted s.input.cmd := by
  cases step_move h hr with
  | idle => exact .inl rfl
  | accept => exact .inr rfl
  | waitSlot hf' | waitGap hf' | emit hf' | endFrame hf' | finish hf' | nextFrame hf' | stuck hf' => simp [hf] at hf'

theorem quietInv_of_idle {s : State} (hf : s.fsm = .idle) (hlow : s.pin = false) : QuietInv s :=
  ⟨fun _ => hlow, by simp [hf]⟩

/-- A valid command starts at slot 0 of Sync, which is HIGH; an invalid one leaves the pin LOW (R86, R106). -/
theorem quietInv_accepted {s : State} (hf : s.fsm = .idle) (hlow : s.pin = false) (cmd : Cmd64) :
    QuietInv (s.accepted cmd) := by
  obtain ⟨-, h⟩ | ⟨hv, -⟩ := s.accepted_cases cmd
  · rw [h]
    exact quietInv_of_idle hf hlow
  · exact (transmitting_accepted hv).1.quiet

/-- Settles O44: reset drives the pin LOW, a busy block keeps it at the level of its place, and IDLE keeps it LOW up to an
accepted command. -/
theorem stepKeepsPinQuiet : Obligations.StepKeepsPinQuiet := by
  intro s t hI hQ h
  by_cases hr : s.input.rst = true
  · rw [step_eq_resetBlock h hr]
    exact quietInv_of_idle rfl rfl
  have hr' : s.input.rst = false := by simpa using hr
  by_cases hb : s.busy = true
  · exact quietInv_step_busy hI hQ hb hr' h
  have hidle : s.fsm = .idle := by simpa [State.busy] using hb
  have hlow : s.pin = false := hQ.1 (.inl hidle)
  obtain rfl | rfl := step_idle_cases hidle hr' h
  · exact quietInv_of_idle (by simpa using hidle) (by simpa using hlow)
  · exact quietInv_accepted (by simpa using hidle) (by simpa using hlow) _

/-! ### Pulses one slot long -/

/-- A HIGH slot of a valid frame is followed by a LOW slot of the same symbol (R73 c, R82). -/
theorem framePattern_after_high {id : BitVec 26} {unit : BitVec 8} {act : Bool} {k j : Nat} {y : Symbol}
    (hu : unitValid unit = true) (hk : k ≤ 33) (hy : frameSym id unit act k = some y) (hj : j < symLen (some y))
    (hhigh : slotLevel y j = true) : (framePattern id unit act)[slotOffset k + j + 1]? = some false := by
  obtain ⟨hj', hlow⟩ := slotLevel_after_high hj hhigh
  rw [Nat.add_assoc, framePattern_slot hu hk hy hj', hlow]

/-- While the pin is HIGH, the next slot of the frame is LOW. -/
theorem pattern_next_of_high {s : State} (hI : SeqInv s) (hQ : QuietInv s) (hf : s.fsm = .slot) (hhigh : s.pin = true) :
    s.pattern[s.frameSlot + 1]? = some false := by
  obtain ⟨hu, -⟩ := hI.busy_spec (by simp [State.busy, hf])
  obtain ⟨hk, hj⟩ := hI.2.2 hf
  obtain ⟨y, hy, hpin⟩ := hQ.2 hf
  rw [hy] at hj
  exact framePattern_after_high hu hk hy hj (hpin.symm.trans hhigh)

/-- The pin is HIGH in SLOT only. -/
theorem fsm_slot_of_high {s : State} (hI : SeqInv s) (hQ : QuietInv s) (hhigh : s.pin = true) : s.fsm = .slot := by
  have hno := hQ.1
  cases hf : s.fsm with
  | slot => rfl
  | idle | gap => simp [hf, hhigh] at hno
  | code3 => exact absurd hf hI.1

/-- The step after a HIGH pin writes no event, or a LOW one. -/
theorem step_of_high {s t : State} (hI : SeqInv s) (hQ : QuietInv s) (hr : s.input.rst = false) (h : step s = .next t)
    (hhigh : s.pin = true) : t.w = s.w ∨ t.pin = false := by
  have hslot := fsm_slot_of_high hI hQ hhigh
  have hb : s.busy = true := by simp [State.busy, hslot]
  obtain ⟨hu, -⟩ := hI.busy_spec hb
  obtain ⟨-, ⟨-, rfl⟩ | ⟨k, j, y, -, -, hnext, hk, hy, hj, rfl⟩ | ⟨-, -, -, -, -, rfl⟩ | ⟨hf, -⟩ | ⟨hf, -⟩⟩ :=
    step_busy_cases hI hb hr h
  · exact .inl (by simp)
  · have hlevel : s.pattern[s.frameSlot + 1]? = some (slotLevel y j.toNat) := by
      rw [← hnext]
      exact framePattern_slot hu hk hy hj
    rw [pattern_next_of_high hI hQ hslot hhigh] at hlevel
    exact .inr (Option.some.inj hlevel).symm
  · exact .inl (by simp)
  · rw [hslot] at hf; cases hf
  · rw [hslot] at hf; cases hf

/-- No two HIGH levels in a row. -/
def PulsesApart (ls : List Level) : Prop := ∀ n, ls[n]? = some true → ls[n + 1]? ≠ some true

theorem lastLevel_iff {w : List WriteEvent} : lastLevel w = true ↔ (levelsOf w).getLast? = some true := by
  rw [lastLevel, levelsOf, List.getLast?_map]
  cases w.getLast? <;> simp

/-- A new event keeps the pulses apart if it is LOW after a HIGH one. -/
theorem PulsesApart.append_event {w : List WriteEvent} {e : WriteEvent} (h : PulsesApart (levelsOf w))
    (he : lastLevel w = true → e.level = false) : PulsesApart (levelsOf (w ++ [e])) := by
  rw [levelsOf_append, show levelsOf [e] = [e.level] from rfl]
  intro n hn hn'
  by_cases hlt : n + 1 < (levelsOf w).length
  · rw [List.getElem?_append_left (by omega)] at hn hn'
    exact h n hn hn'
  have hend : n + 1 = (levelsOf w).length := by
    have hlen := (List.getElem?_eq_some_iff.mp hn').1
    rw [List.length_append, List.length_singleton] at hlen
    omega
  have hlast : lastLevel w = true := by
    rw [List.getElem?_append_left (by omega)] at hn
    rwa [lastLevel_iff, List.getLast?_eq_getElem?, ← hend, Nat.add_sub_cancel]
  rw [hend, List.getElem?_concat_length, he hlast] at hn'
  cases hn'

/-- Settles O46: the pin is the last level of the log, and after a HIGH one a step writes LOW or nothing. -/
theorem pulsesAreOneSlotLong : Obligations.PulsesAreOneSlotLong := by
  intro s t hI hQ hP hapart h
  change PulsesApart (levelsOf t.w)
  by_cases hr : s.input.rst = true
  · rw [step_eq_resetBlock h hr]
    simp [PulsesApart, levelsOf]
  have hr' : s.input.rst = false := by simpa using hr
  obtain ⟨-, hw⟩ | hw := (step_move h hr').pin_w
  · rw [hw]
    exact hapart
  · rw [hw]
    refine PulsesApart.append_event hapart fun hlast => ?_
    obtain hsame | hlow := step_of_high hI hQ hr' h (hP.trans hlast)
    · simp [hsame] at hw
    · exact hlow

end Sys2Proof.Machine
end

section
/-! PROOFS of the family 41_frame_assembly.md: what each field of a frame depends on, the slots each symbol occupies, and
the pulses of a whole frame. -/

namespace Sys2Proof.Machine

/-! ### The fields of a frame -/

theorem frameSym_group (id : BitVec 26) (unit : BitVec 8) (act : Bool) : frameSym id unit act 27 = some .one := rfl

theorem frameSym_activation (id : BitVec 26) (unit : BitVec 8) (act : Bool) :
    frameSym id unit act 28 = some (activationSym act) := rfl

theorem frameSym_channel (id : BitVec 26) (unit : BitVec 8) (act : Bool) :
    frameSym id unit act 29 = some .one ∧ frameSym id unit act 30 = some .one := ⟨rfl, rfl⟩

theorem frameSym_unit (id : BitVec 26) (unit : BitVec 8) (act : Bool) :
    frameSym id unit act 31 = some (unitRead unit).1 ∧ frameSym id unit act 32 = some (unitRead unit).2 := ⟨rfl, rfl⟩

/-- Only the last symbols before Pause depend on the unit (R80). -/
theorem frameSym_congr_unit (id : BitVec 26) (unit unit' : BitVec 8) (act : Bool) {k : Nat} (hk : k ≤ 30) :
    frameSym id unit act k = frameSym id unit' act k := by
  by_cases hdata : 1 ≤ k ∧ k ≤ 26
  · rw [frameSym_data id unit act hdata.1 hdata.2, frameSym_data id unit' act hdata.1 hdata.2]
  · obtain rfl | rfl | rfl | rfl | rfl : k = 0 ∨ k = 27 ∨ k = 28 ∨ k = 29 ∨ k = 30 := by omega
    all_goals rfl

/-- A symbol of eight slots is Zero or One (R69, R70). -/
theorem symbol_of_symLen_eight {y : Symbol} (h : symLen (some y) = 8) : y = .zero ∨ y = .one := by
  cases y <;> simp at h ⊢

/-- Between Sync and Pause a valid frame holds only Zero and One. -/
theorem frameSym_payload {id : BitVec 26} {unit : BitVec 8} {act : Bool} {k : Nat} (hu : unitValid unit = true)
    (h1 : 1 ≤ k) (h32 : k ≤ 32) : frameSym id unit act k = some .zero ∨ frameSym id unit act k = some .one := by
  obtain ⟨y, hy, hlen⟩ := frameSym_some (id := id) (act := act) hu (show k ≤ 33 by omega)
  rw [if_neg (by omega), if_neg (by omega)] at hlen
  obtain rfl | rfl := symbol_of_symLen_eight hlen
  · exact .inl hy
  · exact .inr hy

/-- Settles O15: the mask picks bit 26 - k, and the latched id has the low 26 bits of the field. -/
theorem dataSymReadsIdBit : Obligations.DataSymReadsIdBit := by
  intro id field k h1 h26
  refine ⟨dataSym_eq id h1 h26, ?_⟩
  have hbit : (latchedId field).getLsbD (26 - k) = field.getLsbD (26 - k) := by
    simp only [latchedId, BitVec.getLsbD_extractLsb', Nat.zero_add, decide_eq_true (show 26 - k < 26 by omega),
      Bool.true_and]
  rw [dataSym_eq _ h1 h26, hbit]

/-- Settles O19: each field reads the operand it names. -/
theorem syncAndPauseFrameEveryFrame : Obligations.SyncAndPauseFrameEveryFrame := by
  intro id id' unit unit' act act'
  refine ⟨frameSym_zero _ _ _, frameSym_last _ _ _, by simp [frame, Config.frameSyms], ?_, fun k h1 h26 => ?_, ?_, ?_, ?_⟩
  · simp [frameSym_group, frameSym_channel]
  · rw [frameSym_data id unit act h1 h26, frameSym_data id unit' act' h1 h26]
  · rw [frameSym_activation, frameSym_activation]
  · rw [(frameSym_unit _ _ _).1, (frameSym_unit _ _ _).1]
  · rw [(frameSym_unit _ _ _).2, (frameSym_unit _ _ _).2]

/-! ### The slots of each field -/

/-- Settles O20: slot j of a symbol is what the frame holds at its offset. -/
theorem slotAddressing : Obligations.SlotAddressing := by
  intro id unit act hu
  refine ⟨framePattern_length act hu, fun k j hk hj => ?_⟩
  obtain ⟨y, hy, -⟩ := frameSym_some (id := id) (act := act) hu hk
  rw [hy] at hj ⊢
  rw [framePattern_slot hu hk hy hj, patternOf_get y j hj]

/-- Up to the first Unit symbol, `SlotOffset` counts the slots before symbol `k` for an invalid unit too (R81). -/
theorem slotsBefore_length_of_le (id : BitVec 26) (unit : BitVec 8) (act : Bool) {k : Nat} (hk : k ≤ 31) :
    ((List.range k).flatMap fun i => patternOf (frameSym id unit act i)).length = slotOffset k := by
  rw [← slotsBefore_length (id := id) (unit := 1) act rfl (show k ≤ 33 by omega)]
  refine congrArg List.length (List.flatMap_congr fun i hi => ?_)
  have hik : i < k := List.mem_range.mp hi
  rw [frameSym_congr_unit id unit 1 act (show i ≤ 30 by omega)]

/-- The slots from `SlotOffset(k)` on begin with those of symbol `k`. -/
theorem framePattern_symbol {id : BitVec 26} {unit : BitVec 8} {act : Bool} {k : Nat} (hk : k ≤ 33)
    (h : k ≤ 31 ∨ unitValid unit = true) :
    ((framePattern id unit act).drop (slotOffset k)).take (symLen (frameSym id unit act k)) =
      patternOf (frameSym id unit act k) := by
  have hlen : ((List.range k).flatMap fun i => patternOf (frameSym id unit act i)).length = slotOffset k := by
    obtain h31 | hu := h
    · exact slotsBefore_length_of_le id unit act h31
    · exact slotsBefore_length act hu hk
  rw [framePattern_split id unit act hk, List.drop_left' hlen, List.take_left' (patternOf_length _)]

/-- Two neighbouring symbols of eight slots occupy sixteen. -/
theorem framePattern_symbol_pair {id : BitVec 26} {unit : BitVec 8} {act : Bool} {k : Nat} (hpos : 1 ≤ k) (hk : k < 33)
    (h : k < 31 ∨ unitValid unit = true) (hfst : symLen (frameSym id unit act k) = 8)
    (hsnd : symLen (frameSym id unit act (k + 1)) = 8) :
    ((framePattern id unit act).drop (slotOffset k)).take 16 =
      patternOf (frameSym id unit act k) ++ patternOf (frameSym id unit act (k + 1)) := by
  have hnext : slotOffset (k + 1) = slotOffset k + 8 := by
    rw [slotOffset, slotOffset, if_neg (by omega), if_neg (by omega)]
    omega
  rw [← framePattern_symbol (show k ≤ 33 by omega) (h.imp_left Nat.le_of_lt), ← framePattern_symbol hk h, hfst, hsnd,
    hnext, ← List.drop_drop, ← List.take_add]

/-- Settles O16: neither the symbols nor their places depend on the command. -/
theorem groupAndChannelAreOne : Obligations.GroupAndChannelAreOne := by
  intro id unit act
  refine ⟨frameSym_group id unit act, (frameSym_channel id unit act).1, (frameSym_channel id unit act).2, ?_, ?_⟩
  · exact framePattern_symbol (k := 27) (by decide) (.inl (by decide))
  · exact framePattern_symbol_pair (k := 29) (by decide) (by decide) (.inl (by decide)) rfl rfl

/-- Settles O17: the field is Zero for on and One for off, with the slots of that symbol. -/
theorem activationIsInverted : Obligations.ActivationIsInverted := by
  intro id unit act
  have hslots := framePattern_symbol (id := id) (unit := unit) (act := act) (k := 28) (by decide) (.inl (by decide))
  rw [frameSym_activation, activationSym_len] at hslots
  refine ⟨frameSym_activation id unit act, hslots.trans ?_⟩
  cases act with
  | true => exact patternOf_zero
  | false => exact patternOf_one

/-- On the valid units the table is the two bits of 4 - unit, One for a set bit (R37). -/
theorem unitRead_eq {unit : BitVec 8} (hu : unitValid unit = true) : unitRead unit =
    (if (4 - unit.toNat).testBit 1 then .one else .zero, if (4 - unit.toNat).testBit 0 then .one else .zero) := by
  obtain rfl | rfl | rfl | rfl := unitValid_cases hu
  all_goals rfl

/-- Settles O18: the Unit fields are the pair of the table, and for unit 2 they are One and Zero. -/
theorem unitFieldsAreTheTable : Obligations.UnitFieldsAreTheTable :=
  ⟨frameSym_unit, rfl, rfl, rfl, rfl, fun _ => unitRead_eq, fun _ _ =>
    framePattern_symbol_pair (k := 31) (by decide) (by decide) (.inr rfl) rfl rfl⟩

/-! ### The pulses of a frame -/

/-- Each slot of a frame belongs to one of its symbols (R81). -/
theorem exists_symbol_of_slot {id : BitVec 26} {unit : BitVec 8} {act : Bool} {n : Nat} (hu : unitValid unit = true)
    (hn : n < 310) : ∃ k j y, k ≤ 33 ∧ frameSym id unit act k = some y ∧ j < symLen (some y) ∧ n = slotOffset k + j := by
  have hplace : ∃ k j, k ≤ 33 ∧ j < (if k = 0 then 11 else if k = 33 then 43 else 8) ∧ n = slotOffset k + j := by
    by_cases hsync : n < 11
    · exact ⟨0, n, by omega, hsync, by simp [slotOffset]⟩
    by_cases hpause : 267 ≤ n
    · exact ⟨33, n - 267, by omega, by simp only [OfNat.ofNat_ne_zero, if_true, if_false]; omega,
        by simp only [slotOffset, OfNat.ofNat_ne_zero, if_false]; omega⟩
    · refine ⟨(n - 11) / 8 + 1, (n - 11) % 8, by omega, ?_, ?_⟩
      · rw [if_neg (by omega), if_neg (by omega)]
        omega
      · rw [slotOffset, if_neg (by omega)]
        omega
  obtain ⟨k, j, hk, hj, rfl⟩ := hplace
  obtain ⟨y, hy, hlen⟩ := frameSym_some (id := id) (act := act) hu hk
  exact ⟨k, j, y, hk, hy, hlen ▸ hj, rfl⟩

/-- Every HIGH slot of a valid frame is followed by a LOW one (R82). -/
theorem framePattern_low_after_high {id : BitVec 26} {unit : BitVec 8} {act : Bool} {n : Nat} (hu : unitValid unit = true)
    (hhigh : (framePattern id unit act)[n]? = some true) : (framePattern id unit act)[n + 1]? = some false := by
  have hn : n < 310 := by
    rw [← framePattern_length (id := id) act hu]
    exact (List.getElem?_eq_some_iff.mp hhigh).1
  obtain ⟨k, j, y, hk, hy, hj, rfl⟩ := exists_symbol_of_slot (id := id) (act := act) hu hn
  rw [framePattern_slot hu hk hy hj] at hhigh
  exact framePattern_after_high hu hk hy hj (Option.some.inj hhigh)

/-- Where every HIGH level is followed by a LOW one, each pulse makes two level changes on a LOW pin (R104). -/
theorem levelChanges_eq_two_mul_highCount : ∀ ls : List Level, (∀ n, ls[n]? = some true → ls[n + 1]? = some false) →
    levelChanges false ls = 2 * highCount ls
  | [], _ => rfl
  | false :: ls, h => by
    have ih := levelChanges_eq_two_mul_highCount ls fun n => h (n + 1)
    simpa [levelChanges, highCount] using ih
  | [true], h => by simpa using h 0
  | true :: true :: ls, h => by simpa using h 0
  | true :: false :: ls, h => by
    have ih := levelChanges_eq_two_mul_highCount ls fun n => h (n + 2)
    simp only [highCount] at ih
    simp [levelChanges, highCount, ih]
    omega

theorem highCount_append (v w : List Level) : highCount (v ++ w) = highCount v + highCount w := List.count_append

/-- Sync has one pulse and each payload symbol two (R73 d). -/
theorem highCount_slotsBefore {id : BitVec 26} {unit : BitVec 8} {act : Bool} (hu : unitValid unit = true) {k : Nat}
    (hk : k ≤ 32) : highCount ((List.range (k + 1)).flatMap fun i => patternOf (frameSym id unit act i)) = 2 * k + 1 := by
  induction k with
  | zero => rfl
  | succ k ih =>
    have hpulses : highCount (patternOf (frameSym id unit act (k + 1))) = 2 := by
      obtain hy | hy := frameSym_payload (id := id) (act := act) hu (Nat.le_add_left 1 k) hk
      all_goals rw [hy]; rfl
    rw [List.range_succ, List.flatMap_append, List.flatMap_singleton, highCount_append, ih (by omega), hpulses]
    omega

/-- A frame of a valid command has 66 HIGH slots: two for each payload symbol, one for Sync and one for Pause (R82). -/
theorem highCount_framePattern {id : BitVec 26} {unit : BitVec 8} {act : Bool} (hu : unitValid unit = true) :
    highCount (framePattern id unit act) = 66 := by
  rw [framePattern_split id unit act (Nat.le_refl 33), highCount_append, highCount_slotsBefore hu (Nat.le_refl 32),
    frameSym_last]
  rfl

/-- A frame of a valid command ends LOW, with the last slot of Pause. -/
theorem framePattern_getLast? {id : BitVec 26} {unit : BitVec 8} {act : Bool} (hu : unitValid unit = true) :
    (framePattern id unit act).getLast? = some false := by
  rw [List.getLast?_eq_getElem?, framePattern_length act hu]
  exact framePattern_slot (k := 33) (j := 42) hu (by decide) rfl (by decide)

/-- A payload symbol has its pulses at slot 0 and at slot 2 (One) or 6 (Zero) (R82). -/
theorem framePattern_payload_pulses {id : BitVec 26} {unit : BitVec 8} {act : Bool} {k : Nat} (hu : unitValid unit = true)
    (h1 : 1 ≤ k) (h32 : k ≤ 32) :
    (framePattern id unit act)[slotOffset k]? = some true ∧
    (framePattern id unit act)[slotOffset k + 2]? = some (decide (frameSym id unit act k = some .one)) ∧
    (framePattern id unit act)[slotOffset k + 6]? = some (decide (frameSym id unit act k = some .zero)) := by
  have hk : k ≤ 33 := by omega
  obtain hy | hy := frameSym_payload (id := id) (act := act) hu h1 h32
  all_goals
    refine ⟨framePattern_slot (j := 0) hu hk hy (by decide), ?_, ?_⟩
    · rw [framePattern_slot (j := 2) hu hk hy (by decide), hy]; rfl
    · rw [framePattern_slot (j := 6) hu hk hy (by decide), hy]; rfl

/-- Settles O21: pulses are counted symbol by symbol, and apart from each other each makes two level changes. -/
theorem framePulses : Obligations.FramePulses := by
  intro id unit act hu
  have hlow : ∀ n, (framePattern id unit act)[n]? = some true → (framePattern id unit act)[n + 1]? = some false :=
    fun _ => framePattern_low_after_high hu
  have hhigh : highCount (framePattern id unit act) = 66 := highCount_framePattern hu
  have hchanges : levelChanges false (framePattern id unit act) = 132 := by
    rw [levelChanges_eq_two_mul_highCount _ hlow, hhigh]
  exact ⟨hhigh, hchanges, framePattern_getLast? hu, hlow, fun _ => framePattern_payload_pulses hu⟩

end Sys2Proof.Machine
end

section
/-! PROOFS of the family 42_scheduler.md: what a host presents for a software call, the operations of the dispatch, and the
moves of the state machine: each arm of a step as an equation, then the obligations that read the arms. -/

namespace Sys2Proof

/-! ### What a host presents for a software call -/

/-- The count of the last command is below the field's range, so the field holds it (R95). -/
theorem toNat_ofNat_mod_full (n : Nat) : (BitVec.ofNat 16 (n % 65535)).toNat = n % 65535 := by
  rw [BitVec.toNat_ofNat]
  omega

/-- A positive multiple of the full count needs full commands only. -/
theorem Call.repsFields_of_multiple {c : Call} (h0 : c.repetitions % 65535 = 0) (hpos : c.repetitions ≠ 0) :
    c.repsFields = List.replicate (c.repetitions / 65535) (BitVec.ofNat 16 65535) := by
  rw [Call.repsFields, if_pos ⟨h0, hpos⟩, List.append_nil]

/-- Any other count needs one more command, for the rest. -/
theorem Call.repsFields_of_rest {c : Call} (h : ¬ (c.repetitions % 65535 = 0 ∧ c.repetitions ≠ 0)) :
    c.repsFields = List.replicate (c.repetitions / 65535) (BitVec.ofNat 16 65535) ++
      [BitVec.ofNat 16 (c.repetitions % 65535)] := by
  rw [Call.repsFields, if_neg h]

theorem sum_full (q : Nat) : ((List.replicate q (BitVec.ofNat 16 65535)).map BitVec.toNat).sum = q * 65535 := by
  simp

theorem one_le_of_mem_full {q : Nat} {r : BitVec 16} (h : r ∈ List.replicate q (BitVec.ofNat 16 65535)) :
    1 ≤ r.toNat := by
  rw [List.eq_of_mem_replicate h]
  decide

/-- Settles O6: the full commands carry the quotient by 65535 and the last one, where there is one, the rest. -/
theorem splitRepetitionsAddUp : Obligations.SplitRepetitionsAddUp := by
  intro c
  by_cases hsplit : c.repetitions % 65535 = 0 ∧ c.repetitions ≠ 0
  · obtain ⟨h0, hpos⟩ := hsplit
    rw [Call.repsFields_of_multiple h0 hpos]
    refine ⟨?_, ?_, fun _ _ => one_le_of_mem_full⟩
    · rw [sum_full]
      omega
    · rw [Ne, List.replicate_eq_nil_iff]
      omega
  · rw [Call.repsFields_of_rest hsplit]
    refine ⟨?_, by simp, fun hpos r hr => ?_⟩
    · rw [List.map_append, List.sum_append, sum_full, List.map_singleton, List.sum_singleton, toNat_ofNat_mod_full]
      omega
    · obtain hfull | hlast := List.mem_append.mp hr
      · exact one_le_of_mem_full hfull
      · rw [List.mem_singleton.mp hlast, toNat_ofNat_mod_full]
        omega

/-- A software unit in the field's range is presented as it is, any other as 0 (R95, R134). -/
theorem Call.unitField_toNat (c : Call) :
    (c.unitField.toNat : Int) = if 0 ≤ c.unit ∧ c.unit ≤ 255 then c.unit else 0 := by
  unfold Call.unitField
  split
  · rw [BitVec.toNat_ofInt]
    omega
  · rfl

namespace Machine

theorem unitValid_iff_toNat {u : BitVec 8} : unitValid u = true ↔ 1 ≤ u.toNat ∧ u.toNat ≤ 4 := by
  simp [unitValid]

/-- The low 26 bits of an integer's two's-complement form do not depend on the width of that form. -/
theorem latchedId_ofInt (id : Int) : latchedId (BitVec.ofInt 32 id) = BitVec.ofInt 26 id := by
  apply BitVec.eq_of_toNat_eq
  rw [latchedId, BitVec.extractLsb'_toNat, BitVec.toNat_ofInt, BitVec.toNat_ofInt]
  omega

/-- Settles O7: units are compared as integers, so one outside the field's range is 0 and not its remainder. -/
theorem hostUnitNeverAliases : Obligations.HostUnitNeverAliases := by
  intro c
  have hfield := c.unitField_toNat
  refine ⟨?_, fun hunit => ?_, latchedId_ofInt c.id⟩
  · rw [unitValid_iff_toNat]
    split at hfield <;> omega
  · rw [hfield, if_pos (by omega)]

/-! ### The operations -/

theorem unitValid_iff {u : BitVec 8} : unitValid u = true ↔ u = 1 ∨ u = 2 ∨ u = 3 ∨ u = 4 := by
  refine ⟨unitValid_cases, ?_⟩
  rintro (rfl | rfl | rfl | rfl) <;> rfl

/-- Settles O22: the latch, and after it the frame start where the command is valid. -/
theorem transmitAccepts : Obligations.TransmitAccepts := by
  intro id unit act rsv reps s hf
  have hexec : exec (.transmit id unit act rsv reps) s = _ := execTransmit_idle hf id unit act rsv reps
  rw [← unitValid_iff, ← valid_iff, hexec]
  refine ⟨fun hv => ?_, fun hv => ?_⟩
  · rw [if_pos hv, State.startFrame_eq]
    rfl
  · rw [if_neg hv]
    rfl

/-- Settles O24, state by state of `fsm`. -/
theorem transmitWhileBusy : Obligations.TransmitWhileBusy := by
  intro id unit act rsv reps s
  refine ⟨?_, fun hf => by simp [exec, execTransmit, hf]⟩
  rintro (hf | hf)
  all_goals simp [exec, execTransmit, hf, State.raiseFault]

/-- A symbol's operation, where the level of the slot is known (R88, R96). -/
theorem exec_symbol_of_level {y : Symbol} {s : State} {level : Level} (h : slotLevel y s.slotIdx.toNat = level) :
    exec y.instr s = .next { s with tNext := s.tNext + 250, pin := level, w := s.w ++ [⟨s.now, level⟩] } := by
  rw [exec_symbol, ← h]
  rfl

/-- Where each pattern is HIGH (R68 to R71). -/
theorem slotLevel_sync {j : Nat} (hj : j < 11) : slotLevel .sync j = decide (j = 0) := by
  revert j; decide
theorem slotLevel_zero {j : Nat} (hj : j < 8) : slotLevel .zero j = decide (j = 0 ∨ j = 6) := by
  revert j; decide
theorem slotLevel_one {j : Nat} (hj : j < 8) : slotLevel .one j = decide (j = 0 ∨ j = 2) := by
  revert j; decide
theorem slotLevel_pause {j : Nat} (hj : j < 43) : slotLevel .pause j = decide (j = 0) := by
  revert j; decide

/-- Settles O12: the four operations are one, at the level of their slot. -/
theorem symbolOperationsEmitOneSlot : Obligations.SymbolOperationsEmitOneSlot := fun _ =>
  ⟨fun hj => exec_symbol_of_level (slotLevel_sync hj), fun hj => exec_symbol_of_level (slotLevel_zero hj),
    fun hj => exec_symbol_of_level (slotLevel_one hj), fun hj => exec_symbol_of_level (slotLevel_pause hj)⟩

/-! ### The end of a slot's wait and of a gap, executed -/

theorem finish_slotDone_slot {s : State} (h : s.slotIdx.toNat + 1 < symLen s.currentSym) :
    (slotDone s).finish = .next (s.moveTo s.symIdx (s.slotIdx + 1)).emitSlot := by
  rw [slotDone, if_pos h, finish_fetchSlot]

theorem finish_slotDone_symbol {s : State} (h : symLen s.currentSym ≤ s.slotIdx.toNat + 1)
    (hk : s.symIdx.toNat + 1 < 34) : (slotDone s).finish = .next (s.moveTo (s.symIdx + 1) 0).emitSlot := by
  rw [slotDone, if_neg (by omega), if_pos (show _ < Config.frameSyms from hk), finish_fetchSlot]

theorem finish_slotDone_gap {s : State} (h : symLen s.currentSym ≤ s.slotIdx.toNat + 1)
    (hk : 34 ≤ s.symIdx.toNat + 1) : (slotDone s).finish = .next s.enterGap := by
  rw [slotDone, if_neg (by omega), if_neg (show ¬ _ < Config.frameSyms from Nat.not_lt.mpr hk)]
  rfl

theorem finish_gapDone_last {s : State} (h : s.repCnt + 1 = s.repsR) :
    (gapDone s).finish = .next s.countRepetition.becomeIdle := by
  rw [gapDone, if_pos h]
  rfl

theorem finish_gapDone_frame {s : State} (h : s.repCnt + 1 ≠ s.repsR) :
    (gapDone s).finish = .next s.countRepetition.startFrame := by
  rw [gapDone, if_neg h, finish_fetchSlot]
  rfl

/-! ### The arms of an admitted step without reset -/

section Arms

variable {s : State} (hn : s.now ≤ s.input.now) (hr : s.input.rst = false)
include hn hr

theorem step_idle (hf : s.fsm = .idle) (hs : s.input.start = false) : step s = .next s.sampled := by
  rw [step_admitted hn]
  simp [schedule, hr, hf, hs, Sequenced.finish]

theorem step_slot_due (hf : s.fsm = .slot) (hd : s.tNext ≤ s.input.now) : step s = (slotDone s.checked).finish := by
  rw [step_admitted hn]
  simp [schedule, hr, hf, reached, hd, State.checked]

theorem step_gap_due (hf : s.fsm = .gap) (hd : s.gapEnd ≤ s.input.now) : step s = (gapDone s.checked).finish := by
  rw [step_admitted hn]
  simp [schedule, hr, hf, reached, hd, State.checked]

/-- Before the deadline a step makes the re-entry check and nothing more (R91). -/
theorem step_wait {d : Nat} (hd : s.deadline = some d) (hw : s.input.now < d) : step s = .next s.checked := by
  rw [step_admitted hn]
  cases hf : s.fsm with
  | idle | code3 => simp [State.deadline, hf] at hd
  | slot | gap =>
    obtain rfl := Option.some.inj (by simpa only [State.deadline, hf] using hd)
    simp [schedule, hr, hf, reached, Nat.not_le.mpr hw, State.checked, Sequenced.finish]

end Arms

theorem deadline_slot {s : State} (hf : s.fsm = .slot) : s.deadline = some s.tNext := by simp [State.deadline, hf]
theorem deadline_gap {s : State} (hf : s.fsm = .gap) : s.deadline = some s.gapEnd := by simp [State.deadline, hf]

theorem busy_of_deadline {s : State} {d : Nat} (h : s.deadline = some d) : s.busy = true := by
  cases hf : s.fsm with
  | idle | code3 => simp [State.deadline, hf] at h
  | slot | gap => simp [State.busy, hf]

theorem State.checked_eq (s : State) : s.checked = { s with
    faultReentry := s.faultReentry || s.input.start, now := s.input.now, env := s.env.tail
    draws := s.sampled.draws } := checkReentry_sampled_eq _ _

/-- In SLOT the tuple's next slot has the next index: no pattern is as long as the register's range (R19). -/
theorem slotIdx_succ {s : State} (h : s.slotIdx.toNat + 1 < symLen s.currentSym) :
    (s.slotIdx + 1).toNat = s.slotIdx.toNat + 1 := by
  have hlen := symLen_le s.currentSym
  rw [BitVec.toNat_add]
  exact Nat.mod_eq_of_lt (show s.slotIdx.toNat + 1 < 64 by omega)

/-- The symbol at `sym_idx` is the one of that index (R88). -/
@[simp] theorem State.frameSymAt_symIdx (s : State) : s.frameSymAt s.symIdx.toNat = s.currentSym := rfl

/-- Before the last symbol of a frame the tuple's next symbol has the next index (R19). -/
theorem symIdx_succ {s : State} (h : s.symIdx.toNat + 1 < 34) : (s.symIdx + 1).toNat = s.symIdx.toNat + 1 := by
  rw [BitVec.toNat_add]
  exact Nat.mod_eq_of_lt (show s.symIdx.toNat + 1 < 64 by omega)

theorem checked_moveTo_next_currentSym {s : State} (h : s.symIdx.toNat + 1 < 34) :
    (s.checked.moveTo (s.symIdx + 1) 0).currentSym = s.frameSymAt (s.symIdx.toNat + 1) := by
  rw [State.moveTo_currentSym, symIdx_succ h, State.checked_frameSymAt]

/-! ### What a step does, arm by arm -/

/-- A slot emission runs the operation of the symbol at the tuple (R88). -/
theorem next_emitSlot_eq_exec {s : State} {y : Symbol} (hy : s.currentSym = some y) :
    .next s.emitSlot = exec (decode (.sym2 y.code)) s := by
  rw [decode_symbol_code, exec_symbol, State.emitSlot_of_sym hy]

/-- Settles O27: each arm moves the tuple and emits a slot, which is to run the operation there. -/
theorem stepRunsTheDecodedOperation : Obligations.StepRunsTheDecodedOperation := by
  intro s hn hr
  refine ⟨fun hf hs => ?_, fun y hf hd hl hy => ?_, fun y hf hd hl hk hy => ?_, fun hf hd he => ?_⟩
  · rw [step_accept hn hr hf hs, exec_decode_cmd_idle (by simpa using hf)]
  · rw [step_slot_due hn hr hf hd, finish_slotDone_slot (by simpa using hl), State.checked_symIdx, State.checked_slotIdx]
    exact next_emitSlot_eq_exec (by simpa using hy)
  · rw [step_slot_due hn hr hf hd, finish_slotDone_symbol (by simpa using hl) (by simpa using hk), State.checked_symIdx]
    exact next_emitSlot_eq_exec ((checked_moveTo_next_currentSym hk).trans hy)
  · rw [step_gap_due hn hr hf hd, finish_gapDone_frame (by simpa using he)]
    exact next_emitSlot_eq_exec rfl

/-- Settles O31: a waiting step ends in the sampled or the checked state. -/
theorem waitingStepChangesNothing : Obligations.WaitingStepChangesNothing := by
  intro s hn hr hwait
  refine ⟨s.sampled.draws, ?_⟩
  obtain ⟨hf, hw⟩ | ⟨hf, hw⟩ | ⟨hf, hs⟩ := hwait
  · rw [step_wait hn hr (deadline_slot hf) hw, State.checked_eq, busy_of_deadline (deadline_slot hf), Bool.true_and]
  · rw [step_wait hn hr (deadline_gap hf) hw, State.checked_eq, busy_of_deadline (deadline_gap hf), Bool.true_and]
  · rw [step_idle hn hr hf hs, State.sampled_eq]
    simp [State.busy, hf]

/-- Settles O34, way on by way on. -/
theorem slotDoneMoves : Obligations.SlotDoneMoves := by
  intro s hn hr hf hd
  refine ⟨fun y hy hl => ⟨s.sampled.draws, ?_⟩, fun hl hk hu => ⟨s.sampled.draws, ?_⟩,
    fun hl hk => ⟨s.sampled.draws, ?_⟩⟩
  · rw [← hy] at hl
    rw [step_slot_due hn hr hf hd, finish_slotDone_slot (by simpa using hl),
      State.emitSlot_of_sym (y := y) (by simpa using hy), State.checked_eq, ← slotIdx_succ hl]
    rfl
  · obtain ⟨y, hy, -⟩ := frameSym_some (id := s.idR) (act := s.actR) hu (show s.symIdx.toNat + 1 ≤ 33 by omega)
    have hk' : s.symIdx.toNat + 1 < 34 := by omega
    rw [step_slot_due hn hr hf hd, finish_slotDone_symbol (by simpa using hl) (by simpa using hk'),
      State.checked_symIdx, State.emitSlot_of_sym ((checked_moveTo_next_currentSym hk').trans hy), State.checked_eq,
      ← slotLevel_first y]
    rfl
  · rw [step_slot_due hn hr hf hd, finish_slotDone_gap (by simpa using hl) (by simpa using hk), State.checked_eq]
    rfl

/-- Settles O35, way on by way on. -/
theorem gapDoneMoves : Obligations.GapDoneMoves := by
  intro s hn hr hf hd
  refine ⟨fun he => ⟨s.sampled.draws, ?_⟩, fun he => ⟨s.sampled.draws, ?_⟩⟩
  · rw [step_gap_due hn hr hf hd, finish_gapDone_last (by simpa using he), State.checked_eq]
    rfl
  · rw [step_gap_due hn hr hf hd, finish_gapDone_frame (by simpa using he), State.startFrame_eq, State.checked_eq]
    rfl

/-! ### A start while busy -/

/-- The slot emission neither reads nor writes the flag. -/
theorem State.emitSlot_raiseFault (s : State) : (s.raiseFault .reentry).emitSlot = s.emitSlot.raiseFault .reentry := by
  obtain ⟨y, hy, h⟩ | ⟨hy, h⟩ := s.emitSlot_cases <;> rw [h, State.emitSlot]
  · rw [show (s.raiseFault .reentry).currentSym = some y from hy]
    rfl
  · rw [show (s.raiseFault .reentry).currentSym = none from hy]

/-- Both decisions of the state machine end in the same state, but for the flag, which the second one has set. -/
def SameButFault (p q : Sequenced) : Prop := ∃ t, p.finish = .next t ∧ q.finish = .next (t.raiseFault .reentry)

theorem slotDone_raiseFault (s : State) : SameButFault (slotDone s) (slotDone (s.raiseFault .reentry)) := by
  by_cases hl : s.slotIdx.toNat + 1 < symLen s.currentSym
  · refine ⟨_, finish_slotDone_slot hl, (finish_slotDone_slot (s := s.raiseFault .reentry) hl).trans ?_⟩
    rw [← State.emitSlot_raiseFault]
    rfl
  by_cases hk : s.symIdx.toNat + 1 < 34
  · refine ⟨_, finish_slotDone_symbol (by omega) hk, ?_⟩
    refine (finish_slotDone_symbol (s := s.raiseFault .reentry) (Nat.le_of_not_lt hl) hk).trans ?_
    rw [← State.emitSlot_raiseFault]
    rfl
  · have hgap := finish_slotDone_gap (Nat.le_of_not_lt hl) (Nat.le_of_not_lt hk)
    exact ⟨_, hgap, finish_slotDone_gap (s := s.raiseFault .reentry) (Nat.le_of_not_lt hl) (Nat.le_of_not_lt hk)⟩

theorem gapDone_raiseFault (s : State) : SameButFault (gapDone s) (gapDone (s.raiseFault .reentry)) := by
  by_cases he : s.repCnt + 1 = s.repsR
  · exact ⟨_, finish_gapDone_last he, finish_gapDone_last he⟩
  · refine ⟨_, finish_gapDone_frame he, (finish_gapDone_frame (s := s.raiseFault .reentry) he).trans ?_⟩
    rw [State.startFrame_eq, State.startFrame_eq]
    rfl

/-- The state whose next step carries `i`, with `start` as given. -/
def State.presented (i : StepInput) (rest : List StepInput) (start : Bool) (s : State) : State :=
  { s with env := { i with start := start } :: rest }

/-- After the re-entry check the `start` is seen in the flag alone (R92). -/
theorem State.presented_checked (i : StepInput) (rest : List StepInput) (s : State) :
    (s.presented i rest true).checked = (s.presented i rest false).checked.raiseFault .reentry := rfl

/-- Settles O32: the two steps differ in their checked states by the flag alone, and no arm after the check reads it. -/
theorem reentryOnlySetsTheFlag : Obligations.ReentryOnlySetsTheFlag := by
  intro s i rest hbusy hr hn
  change ∃ t, step (s.presented i rest false) = .next t ∧
    step (s.presented i rest true) = .next (t.raiseFault .reentry)
  have hchecked := s.presented_checked i rest
  have waits {d : Nat} (hd : s.deadline = some d) (hw : i.now < d) :
      ∃ t, step (s.presented i rest false) = .next t ∧
        step (s.presented i rest true) = .next (t.raiseFault .reentry) :=
    ⟨_, step_wait hn hr hd hw, hchecked ▸ step_wait hn hr hd hw⟩
  obtain hf | hf := hbusy
  · by_cases hd : s.tNext ≤ i.now
    · have due (start : Bool) : step (s.presented i rest start) = _ := step_slot_due hn hr hf hd
      rw [due false, due true, hchecked]
      exact slotDone_raiseFault _
    · exact waits (deadline_slot hf) (Nat.lt_of_not_le hd)
  · by_cases hd : s.gapEnd ≤ i.now
    · have due (start : Bool) : step (s.presented i rest start) = _ := step_gap_due hn hr hf hd
      rw [due false, due true, hchecked]
      exact gapDone_raiseFault _
    · exact waits (deadline_gap hf) (Nat.lt_of_not_le hd)

/-! ### The start of a transmission, and its moves -/

/-- Frame 0 is on the ideal schedule from its own start (R87, R102). -/
theorem onIdeal_startFrame {s : State} (hcount : s.repCnt = 0) : OnIdeal s.now s.startFrame :=
  ⟨fun _ => by simp [hcount], by simp⟩

/-- The start of frame 0 writes the first slot (R104). -/
theorem slotsWritten_startFrame {s : State} (hcount : s.repCnt = 0) : s.startFrame.slotsWritten = 1 := by
  simp [State.slotsWritten, hcount]

/-- Settles O47: the accepting step latches the command and starts frame 0, and the rest holds of every start of frame 0. -/
theorem acceptedCommandStartsTheWaveform : Obligations.AcceptedCommandStartsTheWaveform := by
  intro s hf hn hr hs hu hreps
  have hv : valid (s.input.cmd.extractLsb' 32 8) (s.input.cmd.extractLsb' 48 16) = true := valid_iff.mpr ⟨hu, hreps⟩
  obtain ⟨hT, -, hmoves⟩ := transmitting_accepted (s := s.sampled) hv
  obtain ⟨hid, hunit, hact, hrepsR⟩ := s.sampled.accepted_latch s.input.cmd
  have hstart : s.sampled.accepted s.input.cmd = State.startFrame _ := if_pos hv
  refine ⟨_, step_accept hn hr hf hs, ?_, hT.seq, by simpa using hT.wave, ?_, ?_, ?_, hrepsR, ?_⟩
  · rw [hstart, State.startFrame_fsm]
  · rw [hstart, ← s.sampled_now]
    exact onIdeal_startFrame rfl
  · rw [hstart]
    exact slotsWritten_startFrame rfl
  · rw [hmoves, hrepsR]
  · rw [State.pattern, hid, hunit, hact]

/-- The moves left are counted from registers that the re-entry check and the sampling leave alone. -/
@[simp] theorem State.checked_movesLeft (s : State) : s.checked.movesLeft = s.movesLeft := by simp [State.movesLeft]

theorem SeqInv.movesLeft_eq_zero_iff {s : State} (h : SeqInv s) : s.movesLeft = 0 ↔ s.fsm = .idle := by
  refine ⟨fun h0 => ?_, fun hf => by simp [State.movesLeft, hf]⟩
  by_contra hf
  have hpos := h.movesLeft_pos (by simpa [State.busy] using hf)
  omega

/-- Settles O55: a due step makes a move that `movesLeft` counts, and a waiting one keeps what `movesLeft` reads. -/
theorem eachDueStepUsesOneMove : Obligations.EachDueStepUsesOneMove := by
  intro s hI hn hr
  refine ⟨hI.movesLeft_eq_zero_iff, fun d hd => ?_⟩
  obtain ⟨t, h⟩ := step_next hn
  refine ⟨t, h, fun hdue => movesLeft_step_due hI hd hdue (busy_of_deadline hd) hr h, fun hw => ?_⟩
  obtain rfl : s.checked = t := Host.Outcome.next.inj ((step_wait hn hr hd hw).symm.trans h)
  exact s.checked_movesLeft

end Machine
end Sys2Proof
end

section
/-! PROOFS of the family 43_output_driver.md: the writes of the pin, the deadlines of slots and gaps, and a transmission held
against the ideal schedule: the two deadlines side by side, the count of written slots, and the ideal waveform. -/

namespace Sys2Proof.Machine

/-! ### The pin and its deadline -/

/-- Settles O37: each move writes the pin and the log together, or neither. -/
theorem pinAndLogChangeTogether : Obligations.PinAndLogChangeTogether := fun _ _ h hr => (step_move h hr).pin_w

/-- A command accepted into SLOT begins a frame, which sets the deadline from `now` (R86, R87). -/
theorem State.accepted_tNext {s : State} {cmd : Cmd64} (hidle : s.fsm = .idle) (hslot : (s.accepted cmd).fsm = .slot) :
    (s.accepted cmd).tNext = s.now + Config.slotUs := by
  obtain ⟨-, h⟩ | ⟨-, h⟩ := s.accepted_cases cmd <;> rw [h] at hslot ⊢
  · rw [State.latch_fsm, hidle] at hslot
    cases hslot

/-- Settles O38: within SLOT a step waits or emits, and into SLOT it begins a frame. -/
theorem deadlineIsDriftFree : Obligations.DeadlineIsDriftFree := by
  intro s t h hr ht
  change (s.fsm = .slot → t.tNext + Config.slotUs * s.w.length = s.tNext + Config.slotUs * t.w.length) ∧
    (s.fsm ≠ .slot → t.tNext = s.input.now + Config.slotUs)
  cases step_move h hr with
  | idle hf | waitGap hf | stuck hf => simp [hf] at ht
  | accept hf => exact ⟨by simp [hf], fun _ => by simpa using State.accepted_tNext (by simpa using hf) ht⟩
  | waitSlot hf => exact ⟨fun _ => by simp, fun hne => absurd hf hne⟩
  | emit hf k j => exact ⟨fun _ => by simpa using (s.checked.moveTo k j).emitSlot_deadline, fun hne => absurd hf hne⟩
  | endFrame | finish => simp at ht
  | nextFrame hf => exact ⟨by simp [hf], fun _ => by simp⟩

/-! ### No wait longer than a slot or a gap -/

theorem deadlineInv_of_idle {s : State} (hf : s.fsm = .idle) : DeadlineInv s := by simp [DeadlineInv, hf]

/-- In SLOT the invariant is about the slot's deadline alone. -/
theorem deadlineInv_of_slot {s : State} (hf : s.fsm = .slot) (hd : s.tNext ≤ s.now + Config.slotUs) : DeadlineInv s :=
  ⟨fun _ => hd, by simp [hf]⟩

/-- A later sampled time leaves less to wait. -/
theorem DeadlineInv.checked {s : State} (h : DeadlineInv s) (hn : s.now ≤ s.input.now) : DeadlineInv s.checked := by
  obtain ⟨hslot, hgap⟩ := h
  rw [DeadlineInv, State.checked_fsm, State.checked_tNext, State.checked_gapEnd, State.checked_now]
  exact ⟨fun hf => (hslot hf).trans (by omega), fun hf => (hgap hf).trans (by omega)⟩

theorem deadlineInv_accepted {s : State} (hf : s.fsm = .idle) (cmd : Cmd64) : DeadlineInv (s.accepted cmd) := by
  obtain ⟨-, h⟩ | ⟨-, h⟩ := s.accepted_cases cmd <;> rw [h]
  · exact deadlineInv_of_idle (by simpa using hf)
  · exact deadlineInv_of_slot rfl (Nat.le_refl _)

theorem State.emitSlot_tNext_le (s : State) : s.emitSlot.tNext ≤ s.tNext + Config.slotUs := by
  obtain ⟨y, -, h⟩ | ⟨-, h⟩ := s.emitSlot_cases <;> rw [h]
  · exact Nat.le_refl _
  · exact Nat.le_add_right _ _

/-- Before its deadline a step without reset leaves the checked state (R91). -/
theorem step_before_deadline {s t : State} {d : Nat} (hr : s.input.rst = false) (hd : s.deadline = some d)
    (hw : s.input.now < d) (h : step s = .next t) : t = s.checked :=
  Host.Outcome.next.inj (h.symm.trans (step_wait (step_cases h).1 hr hd hw))

/-- Settles O45: a new deadline lies 250 µs after one that is due, or a slot or a gap after `now`; every other move keeps the
deadline, and `now` does not decrease. -/
theorem stepKeepsDeadlineNear : Obligations.StepKeepsDeadlineNear := by
  intro s t hD h
  by_cases hr : s.input.rst = true
  · rw [step_eq_resetBlock h hr]
    exact deadlineInv_of_idle rfl
  have hr' : s.input.rst = false := by simpa using hr
  have hwait : DeadlineInv s.checked := hD.checked (step_cases h).1
  cases step_move h hr' with
  | idle hf => exact deadlineInv_of_idle (by simpa using hf)
  | accept hf => exact deadlineInv_accepted (by simpa using hf) _
  | waitSlot | waitGap => exact hwait
  | emit hf k j =>
    by_cases hdue : s.tNext ≤ s.input.now
    · refine deadlineInv_of_slot (by simpa using hf) ((State.emitSlot_tNext_le _).trans ?_)
      simpa using hdue
    · rw [step_before_deadline hr' (deadline_slot hf) (Nat.lt_of_not_le hdue) h]
      exact hwait
  | endFrame => exact ⟨by simp, fun _ => by simp⟩
  | finish => exact deadlineInv_of_idle rfl
  | nextFrame => exact deadlineInv_of_slot (by simp) (by simp)
  | stuck hf => simp [DeadlineInv, hf]

/-! ### The written slots -/

theorem slotsWritten_slot {s : State} (hf : s.fsm = .slot) :
    s.slotsWritten = 310 * s.repCnt.toNat + s.frameSlot + 1 := by
  simp [State.slotsWritten, hf, Config.frameSlots]

theorem slotsWritten_gap {s : State} (hf : s.fsm = .gap) : s.slotsWritten = 310 * s.repCnt.toNat + 310 := by
  simp [State.slotsWritten, hf, Config.frameSlots]

/-- The count reads no register that the sampling and the re-entry check write. -/
@[simp] theorem State.checked_slotsWritten (s : State) : s.checked.slotsWritten = s.slotsWritten := by
  simp [State.slotsWritten]

/-- Settles O52: a slot's end and a gap's end write one event each and count one slot more; a frame's end writes none, and
its 310 slots are counted already. -/
theorem slotCount : Obligations.SlotCount := by
  intro s t hI hb hr h
  obtain ⟨-, ⟨-, ht⟩ | ⟨k, j, y, hf, -, hnext, -, -, -, rfl⟩ | ⟨hf, -, hlast, -, -, rfl⟩ | ⟨hf, -, he, rfl⟩ |
    ⟨hf, -, he, -, rfl⟩⟩ := step_busy_cases hI hb hr h
  · rw [show t = s.checked from ht]
    simp [hb]
  · refine ⟨fun _ => ?_, by simp [hb]⟩
    rw [slotsWritten_slot hf, slotsWritten_slot (by simpa using hf)]
    simp [hnext]
    omega
  · refine ⟨fun _ => ?_, by simp⟩
    rw [slotsWritten_slot hf, slotsWritten_gap (by simp), hlast]
    simp
  · refine ⟨by simp, fun _ => ⟨by simp, ?_⟩⟩
    rw [slotsWritten_gap hf, he]
    ring
  · refine ⟨fun _ => ?_, by simp⟩
    rw [slotsWritten_gap hf, slotsWritten_slot (by simp)]
    simp at he ⊢
    omega

/-! ### A transmission against the ideal schedule -/

/-- Where the deadline of the current place lies on the ideal schedule of a transmission accepted at `accepted` (R102,
R103). -/
def State.idealDeadline (accepted : Nat) (s : State) : Nat :=
  match s.fsm with
  | .slot => accepted + repetitionUs * s.repCnt.toNat + Config.slotUs * (s.frameSlot + 1)
  | .gap => accepted + repetitionUs * (s.repCnt.toNat + 1)
  | .idle | .code3 => accepted

theorem idealDeadline_slot {s : State} (hf : s.fsm = .slot) (accepted : Nat) :
    s.idealDeadline accepted = accepted + 112500 * s.repCnt.toNat + 250 * (s.frameSlot + 1) := by
  simp [State.idealDeadline, hf, repetitionUs, Config.slotUs, Config.frameSlots, Config.gapUs]

theorem idealDeadline_gap {s : State} (hf : s.fsm = .gap) (accepted : Nat) :
    s.idealDeadline accepted = accepted + 112500 * (s.repCnt.toNat + 1) := by
  simp [State.idealDeadline, hf, repetitionUs, Config.slotUs, Config.frameSlots, Config.gapUs]

@[simp] theorem State.checked_idealDeadline (s : State) (accepted : Nat) :
    s.checked.idealDeadline accepted = s.idealDeadline accepted := by
  simp [State.idealDeadline]

@[simp] theorem State.checked_deadline (s : State) : s.checked.deadline = s.deadline := by simp [State.deadline]

theorem notBeforeIdeal_iff {accepted d : Nat} {s : State} (hd : s.deadline = some d) :
    NotBeforeIdeal accepted s ↔ s.idealDeadline accepted ≤ d := by
  cases hf : s.fsm with
  | idle | code3 => simp [State.deadline, hf] at hd
  | slot | gap =>
    obtain rfl := Option.some.inj (by simpa only [State.deadline, hf] using hd)
    simp [NotBeforeIdeal, State.idealDeadline, hf]

theorem onIdeal_iff {accepted d : Nat} {s : State} (hd : s.deadline = some d) :
    OnIdeal accepted s ↔ d = s.idealDeadline accepted := by
  cases hf : s.fsm with
  | idle | code3 => simp [State.deadline, hf] at hd
  | slot | gap =>
    obtain rfl := Option.some.inj (by simpa only [State.deadline, hf] using hd)
    simp [OnIdeal, State.idealDeadline, hf]

/-- What a step makes of a deadline `d`: the next one is a wait after `d` itself or after a `now` at which `d` is due, and
the ideal schedule grows by the same wait; or the transmission ends, at its last deadline or later (R89, R90, R101). -/
theorem step_deadline_cases {s t : State} {d : Nat} (accepted : Nat) (hI : SeqInv s) (hd : s.deadline = some d)
    (hr : s.input.rst = false) (h : step s = .next t) :
    (∃ base wait, d ≤ base ∧ base ≤ max d s.input.now ∧ t.busy = true ∧ t.deadline = some (base + wait) ∧
      t.idealDeadline accepted = s.idealDeadline accepted + wait) ∨
    (d ≤ s.input.now ∧ t.busy = false ∧ s.idealDeadline accepted = accepted + 112500 * s.repsR.toNat) := by
  have hb := busy_of_deadline hd
  have slot_d (hf : s.fsm = .slot) : s.tNext = d := Option.some.inj ((deadline_slot hf).symm.trans hd)
  have gap_d (hf : s.fsm = .gap) : s.gapEnd = d := Option.some.inj ((deadline_gap hf).symm.trans hd)
  obtain ⟨-, ⟨-, rfl⟩ | ⟨k, j, y, hf, hdue, hnext, -, -, -, rfl⟩ | ⟨hf, hdue, hlast, -, -, rfl⟩ | ⟨hf, hdue, he, rfl⟩ |
    ⟨hf, hdue, he, -, rfl⟩⟩ := step_busy_cases hI hb hr h
  · exact .inl ⟨d, 0, Nat.le_refl _, Nat.le_max_left _ _, s.checked_busy.trans hb, s.checked_deadline.trans hd,
      s.checked_idealDeadline accepted⟩
  · refine .inl ⟨d, 250, Nat.le_refl _, Nat.le_max_left _ _, by simpa using hb, ?_, ?_⟩
    · rw [deadline_slot (by simpa using hf), ← slot_d hf]
      simp [Config.slotUs]
    · rw [idealDeadline_slot hf, idealDeadline_slot (by simpa using hf)]
      simp [hnext]
      omega
  · refine .inl ⟨s.input.now, 35000, slot_d hf ▸ hdue, Nat.le_max_right _ _, by simp, ?_, ?_⟩
    · rw [deadline_gap (by simp)]
      simp [Config.gapUs]
    · rw [idealDeadline_slot hf, idealDeadline_gap (by simp), hlast]
      simp
      omega
  · refine .inr ⟨gap_d hf ▸ hdue, by simp, ?_⟩
    rw [idealDeadline_gap hf, he]
  · refine .inl ⟨s.input.now, 250, gap_d hf ▸ hdue, Nat.le_max_right _ _, by simp, ?_, ?_⟩
    · rw [deadline_slot (by simp)]
      simp [Config.slotUs]
    · rw [idealDeadline_gap hf, idealDeadline_slot (by simp), State.startFrame_repCnt, State.countRepetition_repCnt]
      simp at he ⊢
      omega

/-- Settles O53: no step takes a deadline back, and the ideal schedule grows by no more than the deadline does. -/
theorem neverAheadOfTheIdeal : Obligations.NeverAheadOfTheIdeal := by
  intro accepted s t hI hideal hb hr h
  obtain ⟨d, hd⟩ := hI.exists_deadline hb
  have hle := (notBeforeIdeal_iff hd).mp hideal
  obtain ⟨base, wait, hbase, -, hb', hd', hgrow⟩ | ⟨hdue, hb', hend⟩ := step_deadline_cases accepted hI hd hr h
  · exact ⟨fun _ => (notBeforeIdeal_iff hd').mpr (by omega), by simp [hb']⟩
  · have hnow := (step_env_now h).2
    exact ⟨by simp [hb'], fun _ => by omega⟩

/-- Settles O54: a step at its deadline measures the next wait from that deadline, whichever clock the move reads. -/
theorem idealScheduleIsExact : Obligations.IdealScheduleIsExact := by
  intro accepted s t hI hideal hd hr h
  have heq := (onIdeal_iff hd).mp hideal
  obtain ⟨base, wait, hlow, hhigh, hb', hd', hgrow⟩ | ⟨-, hb', hend⟩ := step_deadline_cases accepted hI hd hr h
  · exact ⟨fun _ => (onIdeal_iff hd').mpr (by omega), by simp [hb']⟩
  · have hnow := (step_env_now h).2
    exact ⟨by simp [hb'], fun _ => by omega⟩

/-! ### The ideal waveform -/

theorem idealEvents_get {origin i : Nat} {ls : List Level} (h : i < (idealEvents origin ls).length) :
    (idealEvents origin ls)[i].time = origin + 250 * i := by
  simp [idealEvents, Config.slotUs]

/-- Within slot `n` the ideal write events so far are those of slots 0 to `n` (R102). -/
theorem idealEvents_until (origin : Nat) (ls : List Level) {n d : Nat} (hd : d < 250) :
    (idealEvents origin ls).filter (fun e => decide (e.time ≤ origin + 250 * n + d)) =
      (idealEvents origin ls).take (n + 1) := by
  conv_lhs => rw [← List.take_append_drop (n + 1) (idealEvents origin ls)]
  rw [List.filter_append, List.filter_eq_self.mpr, List.filter_eq_nil_iff.mpr, List.append_nil]
  · intro e he
    obtain ⟨i, hi, rfl⟩ := List.mem_drop_iff_getElem.mp he
    rw [idealEvents_get, decide_eq_true_eq]
    omega
  · intro e he
    obtain ⟨i, hi, rfl⟩ := List.mem_take_iff_getElem.mp he
    rw [idealEvents_get, decide_eq_true_eq]
    omega

/-- Settles O57: within slot `n` the last of the ideal events so far is slot `n`'s. -/
theorem idealWaveformHoldsEachSlot : Obligations.IdealWaveformHoldsEachSlot := by
  intro origin ls n d hn hd
  have hlast : ((idealEvents origin ls).take (n + 1)).getLast? = some ⟨origin + 250 * n, ls[n]⟩ := by
    simp [List.getLast?_take, idealEvents, hn, Config.slotUs]
  rw [levelAt, idealEvents_until origin ls hd, hlast, List.getElem?_eq_getElem hn]

end Sys2Proof.Machine
end

section
/-! PROOFS of the family 60_exceptions.md: an invalid command, which raises no fault and has no visible effect. -/

namespace Sys2Proof.Machine

/-- A command is invalid by its unit or by its count of repetitions (R86). -/
theorem valid_eq_false_iff {u : BitVec 8} {r : BitVec 16} :
    valid u r = false ↔ ¬ (1 ≤ u.toNat ∧ u.toNat ≤ 4) ∨ r.toNat = 0 := by
  rw [← Bool.not_eq_true, valid_iff, unitValid_iff_toNat, not_and_or, Nat.not_le, Nat.lt_one_iff]

/-- Acceptance of an invalid command latches it and does nothing more (R86, R106, R107). -/
theorem State.accepted_of_invalid (s : State) {cmd : Cmd64}
    (hv : valid (cmd.extractLsb' 32 8) (cmd.extractLsb' 48 16) = false) : s.accepted cmd =
      s.latch (cmd.extractLsb' 0 32) (cmd.extractLsb' 32 8) (cmd.getLsbD 40) (cmd.extractLsb' 48 16) :=
  if_neg (Bool.not_eq_true _ ▸ hv)

theorem busy_idle {s : State} (hf : s.fsm = .idle) : s.busy = false := by simp [State.busy, hf]
theorem deadline_idle {s : State} (hf : s.fsm = .idle) : s.deadline = none := by simp [State.deadline, hf]

/-- Settles O23: the step only samples and latches, which keeps IDLE, the pin, the log and the flag; IDLE is not busy and has
no deadline. -/
theorem invalidCommandIsSilent : Obligations.InvalidCommandIsSilent := by
  intro s hf hn hr hs hinvalid
  have hlatch := s.sampled.accepted_of_invalid (valid_eq_false_iff.mpr hinvalid)
  have hidle : (s.sampled.accepted s.input.cmd).fsm = .idle := by simpa [hlatch] using hf
  exact ⟨_, step_accept hn hr hf hs, hidle, busy_idle hidle, by simp [hlatch], by simp [hlatch], by simp,
    deadline_idle hidle⟩

end Sys2Proof.Machine
end

section
/-! PROOFS of the family 70_reset_and_hazards.md: the reset step, the step that time refuses, which steps read the command,
two slots at one time after a late poll, and the deadline compare of a finite clock. -/

namespace Sys2Proof.Machine

/-! ### A late poll -/

/-- In SLOT a due step before the frame's last slot writes the next slot, whichever symbol it belongs to (R89, R101). -/
theorem step_slot_due_writes {s t : State} (hI : SeqInv s) (hf : s.fsm = .slot) (hmore : s.frameSlot + 1 < 310)
    (hd : s.tNext ≤ s.input.now) (hr : s.input.rst = false) (h : step s = .next t) :
    t.fsm = .slot ∧ t.frameSlot = s.frameSlot + 1 ∧ t.tNext = s.tNext + 250 ∧
      ∃ level, t.w = s.w ++ [⟨s.input.now, level⟩] := by
  have hb := busy_of_deadline (deadline_slot hf)
  obtain ⟨-, ⟨⟨-, hw⟩ | ⟨hgap, -⟩, -⟩ | ⟨k, j, y, -, -, hnext, -, -, -, rfl⟩ | ⟨-, -, hlast, -⟩ | ⟨hgap, -⟩ | ⟨hgap, -⟩⟩ :=
    step_busy_cases hI hb hr h
  · omega
  · simp [hf] at hgap
  · exact ⟨by simpa using hf, by simpa using hnext, by simp [Config.slotUs], slotLevel y j.toNat, by simp⟩
  · omega
  · simp [hf] at hgap
  · simp [hf] at hgap

/-- A poll that finds the slot's wait over writes the next slot at the time of the poll, moves the deadline on by one slot
and leaves the flag; the block stays in the frame (R89, R101, R109). -/
theorem step_due_poll {s : State} {n : Nat} {rest : List StepInput} (hI : SeqInv s) (hf : s.fsm = .slot)
    (hmore : s.frameSlot + 1 < 310) (hn : s.now ≤ n) (hd : s.tNext ≤ n) (henv : s.env = polls [n] ++ rest) :
    ∃ t level, step s = .next t ∧ SeqInv t ∧ t.fsm = .slot ∧ t.frameSlot = s.frameSlot + 1 ∧ t.tNext = s.tNext + 250 ∧
      t.w = s.w ++ [⟨n, level⟩] ∧ t.faultReentry = s.faultReentry ∧ t.now = n ∧ t.env = rest := by
  have hin : s.input = ⟨false, false, 0, n⟩ := State.input_of_env henv
  have hr : s.input.rst = false := by rw [hin]
  have hnow : s.input.now = n := by rw [hin]
  obtain ⟨t, h⟩ := step_next (s := s) (hnow ▸ hn)
  obtain ⟨hslot, hplace, hgrid, level, hw⟩ := step_slot_due_writes hI hf hmore (hnow ▸ hd) hr h
  obtain ⟨henv', hnow'⟩ := step_env_now h
  exact ⟨t, level, h, stepKeepsSequencing s t hI h, hslot, hplace, hgrid, hnow ▸ hw,
    faultReentry_step hr (by rw [hin]) h, hnow'.trans hnow, by rw [henv', henv]; rfl⟩

/-- Settles O39: after a late poll the next deadline has passed too, so the second poll is a late one again. -/
theorem catchUpCollapse : Obligations.CatchUpCollapse := by
  intro s n rest hI hf hmore hn hd henv
  obtain ⟨t, a, h, hI', hf', hplace, hgrid, hw, hfault, hnow, henv'⟩ :=
    step_due_poll (rest := polls [n] ++ rest) hI hf (by omega) hn (by omega) henv
  obtain ⟨u, b, h', -, -, hplace', hgrid', hw', hfault', -, -⟩ :=
    step_due_poll hI' hf' (by omega) hnow.le (by omega) henv'
  refine ⟨u, a, b, ?_, by simp [hw', hw], by omega, by omega, hfault'.trans hfault⟩
  rw [core_run_succ h, core_run_succ h']
  rfl

/-! ### Steps that differ in what they carry -/

/-- A step whose input is planned: refused where time has decreased, else what the state machine decides, executed (R84). -/
theorem step_planned (s : State) (i : StepInput) (rest : List StepInput) : step { s with env := i :: rest } =
    if i.now < s.now then .refused (.nowDecreased s.now i.now)
    else (schedule i { s with env := rest, now := i.now }).finish := by
  split
  next hlt => exact step_not_admitted hlt
  next hle => exact step_admitted (Nat.le_of_not_lt hle)

/-- Two planned inputs of one time make the same step when the state machine decides the same on both. -/
theorem step_planned_congr {s : State} {i i' : StepInput} {rest : List StepInput} (hnow : i.now = i'.now)
    (h : ∀ t, t.fsm = s.fsm → schedule i t = schedule i' t) :
    step { s with env := i :: rest } = step { s with env := i' :: rest } := by
  rw [step_planned, step_planned, hnow, h { s with env := rest, now := i'.now } rfl]

/-- Reset wins over everything else an input carries (R84, R111). -/
theorem schedule_reset {i : StepInput} (hr : i.rst = true) (s : State) : schedule i s = .settled s.resetBlock := if_pos hr

/-- Settles O30: a reset step ends in the reset of the sampled state, whatever it carries besides. -/
theorem resetFromAnyState : Obligations.ResetFromAnyState := by
  refine ⟨fun s hn hr => ?_, fun s i start cmd rest hr => ?_⟩
  · have hstep : step s = .next s.sampled.resetBlock := by
      rw [step_admitted hn, schedule_reset hr]
      rfl
    exact ⟨_, hstep, rfl, rfl, rfl, rfl, rfl, by simp, by simp⟩
  · have hr' : ({ i with start := start, cmd := cmd } : StepInput).rst = true := hr
    exact step_planned_congr rfl fun t _ => (schedule_reset hr t).trans (schedule_reset hr' t).symm

/-- Settles O29: the refusal is the step's first test, before any input but the time is read. -/
theorem decreasingTimeIsRefused : Obligations.DecreasingTimeIsRefused := fun _ => step_not_admitted

/-- The one arm of the state machine that reads `cmd` is that of an acceptance (R133). -/
theorem schedule_cmd {i : StepInput} {s : State} (cmd : Cmd64)
    (hno : ¬ (s.fsm = .idle ∧ i.start = true ∧ i.rst = false)) : schedule i s = schedule { i with cmd := cmd } s := by
  by_cases hr : i.rst = true
  · exact (schedule_reset hr s).trans (schedule_reset (i := { i with cmd := cmd }) hr s).symm
  cases hf : s.fsm with
  | idle =>
    have hs : i.start = false := by simpa [hf, hr] using hno
    simp [schedule, hr, hf, hs]
  | slot | gap | code3 => simp [schedule, hr, hf]

/-- Settles O33: outside an acceptance the state machine decides the same on both inputs. -/
theorem commandIsReadAtAcceptanceOnly : Obligations.CommandIsReadAtAcceptanceOnly :=
  fun _ _ cmd _ hno => step_planned_congr rfl fun _ hf => schedule_cmd cmd (hf ▸ hno)

/-! ### The compare of a finite clock -/

/-- The clock value of a later time, less that of an earlier one, is that of the time between, wrapped or not (R130). -/
theorem ofNat_add_sub_ofNat (width earlier between : Nat) :
    BitVec.ofNat width (earlier + between) - BitVec.ofNat width earlier = BitVec.ofNat width between := by
  rw [BitVec.ofNat_add, BitVec.add_comm, BitVec.add_sub_cancel]

/-- A deadline less than half the range ago has passed on the finite clock. -/
theorem reachedFinite_of_past {width deadline late : Nat} (hlate : late < 2 ^ (width - 1)) :
    reachedFinite width (BitVec.ofNat width (deadline + late)) (BitVec.ofNat width deadline) = true := by
  rw [reachedFinite, decide_eq_true_eq, ofNat_add_sub_ofNat, BitVec.toNat_ofNat]
  exact (Nat.mod_le _ _).trans_lt hlate

/-- A deadline less than half the range ahead has not passed on the finite clock: the difference wraps into the upper half
of the range. -/
theorem reachedFinite_of_ahead {width now left : Nat} (hpos : 1 ≤ width) (hleft : 0 < left)
    (hhalf : left < 2 ^ (width - 1)) :
    reachedFinite width (BitVec.ofNat width now) (BitVec.ofNat width (now + left)) = false := by
  have hrange : 2 ^ width = 2 * 2 ^ (width - 1) := (mul_pow_sub_one (by omega) 2).symm
  have hdiff : BitVec.ofNat width now - BitVec.ofNat width (now + left) = -BitVec.ofNat width left := by
    rw [← ofNat_add_sub_ofNat width now left, BitVec.neg_sub, BitVec.add_comm, BitVec.sub_eq_add_neg]
  rw [reachedFinite, decide_eq_false_iff_not, hdiff, BitVec.toNat_neg, BitVec.toNat_ofNat,
    Nat.mod_eq_of_lt (show left < 2 ^ width by omega), Nat.mod_eq_of_lt (by omega)]
  omega

/-- Settles O58, by which of the two times is the later one. -/
theorem finiteClockCompareAgrees : Obligations.FiniteClockCompareAgrees := by
  intro width now deadline hpos hpast hahead
  obtain hle | hlt := le_or_gt deadline now
  · obtain ⟨late, rfl⟩ := Nat.exists_eq_add_of_le hle
    rw [reachedFinite_of_past (by omega), reached, decide_eq_true hle]
  · obtain ⟨left, rfl⟩ := Nat.exists_eq_add_of_lt hlt
    rw [Nat.add_assoc, reachedFinite_of_ahead hpos (by omega) (by omega), reached, decide_eq_false (by omega)]

end Sys2Proof.Machine
end
